-- ==== Sys2Proof/Word.lean ====
section
/-! DEFINITION. The bit strings of the machine: words, addresses, bytes and vector registers (R7, R8, R13). -/

namespace Sys2Proof

/-- An instruction word, a control register or a 32-bit element: `ILEN` = 32 (R7). -/
abbrev Word := BitVec 32

/-- A `GPRLEN`-bit string: a general register, the pc or a virtual address (R7, R34, R36, R70). With `GPRLEN` = 32 it is
held with its upper 32 bits zero (log 6). -/
abbrev Addr := BitVec 64

/-- A byte of memory (R54). -/
abbrev Byte := BitVec 8

/-- A vector register: `WRLEN` = 128 bits (R7, R30). -/
abbrev Vec := BitVec 128

end Sys2Proof
end

