-- ==== Sys2Proof/Config.lean ====
section
/-! DEFINITION. What an implementation or a launch fixes: the parameters of R7 as plain data (`Params`), and the
values and functions that the spec leaves open, as constants without a body (nothing can evaluate them). -/

namespace Sys2Proof

/-- `GPRLEN`, the width of a general register and of a virtual address: 32, "OPEN to 64" (R7, D1; log 6). -/
inductive GprLen
  | w32
  | w64
  deriving DecidableEq, Repr

/-- `ENDIAN`, the byte order of data and of instruction fetch (R72). -/
inductive Endian
  | little
  | big
  deriving DecidableEq, Repr

/-- `BMU_SRC_INDEX`: which bit of `WR[ws]` BMU.V copies (R183). -/
inductive BmuSrcIndex
  /-- the printed operation: bit `i` itself -/
  | i
  /-- the other reading: bit `j`, the number of set positions met before -/
  | j
  deriving DecidableEq, Repr

/-- `XHS_ZERO_SIGN`: the sign of the single-precision zero made from an XHS zero (R217). -/
inductive XhsZeroSign
  | copy
  | positive
  deriving DecidableEq, Repr

/-- The kind of a data access (the last argument of the source's `AddressTranslation`, R80, R259). -/
inductive Access
  | load
  | store
  deriving DecidableEq, Repr

/-- One row of a finite table for the parameter `translate` (R80): the accesses of kind `access` to the `size`
virtual addresses from `first` on go to `target` and the addresses after it, or fault where `target` is `none`.
Since there are finitely many addresses, a list of such rows can say any `translate` (log 22). -/
structure TranslationRow where
  access : Access
  first : Addr
  size : Nat
  target : Option Addr
  deriving DecidableEq, Repr

/-- The implementation parameters of R7 that are values. No step changes one (log 7). -/
structure Params where
  /-- `GPRLEN` (R34, R36, R70) -/
  gprLen : GprLen
  /-- `ENDIAN` (R72) -/
  endian : Endian
  /-- `BMU_SRC_INDEX` (R183) -/
  bmuSrcIndex : BmuSrcIndex
  /-- `XHS_ZERO_SIGN` (R217) -/
  xhsZeroSign : XhsZeroSign
  /-- `SPARSE_INC_WRAPS` (R247) -/
  sparseIncWraps : Bool
  /-- `REQUIRE_CU2` (R367) -/
  requireCU2 : Bool
  /-- `GEN_EXC_VECTOR` (R359) -/
  genExcVector : Addr
  /-- `MSAIR_WRP`, bit 16 of MSAIR (R37) -/
  msairWrp : Bool
  /-- `MSAIR_PROCID`, bits 15:8 of MSAIR (R37) -/
  msairProcId : BitVec 8
  /-- `MSAIR_VERSION`, bits 7:0 of MSAIR (R37) -/
  msairVersion : BitVec 8
  /-- `translate`; the first row that holds an access decides it, the identity where none does (R80) -/
  translation : List TranslationRow
  deriving DecidableEq, Repr

/-- DESIGN CHOICE (log 8): the value of `MSAIR_PROCID` in the state after reset; the spec gives none (R37, D33). -/
opaque Config.msairProcId : BitVec 8

/-- DESIGN CHOICE (log 8): the value of `MSAIR_VERSION` in the state after reset; the spec gives none (R37, D33). -/
opaque Config.msairVersion : BitVec 8

/-- DESIGN CHOICE (log 8): bits 31:2 of `GEN_EXC_VECTOR` in the state after reset; the spec gives none (R359, D9).
Bits 1:0 are zero, because the pc it goes to is a multiple of 4 (R36), and none stands above bit 31, because `GPRLEN` is
32 there. -/
opaque Config.genExcVectorIndex : BitVec 30

/-- DESIGN CHOICE (log 8): the value of `SPARSE_INC_WRAPS` in the state after reset; "No default is chosen" (R247). -/
opaque Config.sparseIncWraps : Bool

/-- DESIGN CHOICE (log 9): the part of `fcmul_arith` that R156 leaves open, a function of the rounding mode
(MSACSR.RM), the four operands and the sign of the second product (`true` for a difference). -/
opaque Config.fcmulOpen : BitVec 2 → Word → Word → Word → Word → Bool → Word

/-- DESIGN CHOICE (log 14): `xhs_out_of_range(S, e, F, ebits)`, "about which a model may assume nothing" (R218). -/
opaque Config.xhsOutOfRange : Bool → Int → Nat → Nat → Word

/-- DESIGN CHOICE (log 13): the unspecified `WR[wd]` of a conversion with an invalid control value (R211); the
argument counts the draws. -/
opaque Config.freeVector : Nat → Vec

/-- DESIGN CHOICE (log 12): the unspecified MSACSR.Cause after FCMUL.W (R157); the argument counts the draws. -/
opaque Config.freeFpCause : Nat → BitVec 6

/-- DESIGN CHOICE (log 12): the unspecified MSACSR.Flags after FCMUL.W (R157); the argument counts the draws. -/
opaque Config.freeFpFlags : Nat → BitVec 5

end Sys2Proof
end

