-- ==== Sys2Proof/Syntax.lean ====
section
/-! DEFINITION. The instructions: one constructor per row of spec/opcode_table.json (72 encodings), its operands in
the order of the assembler forms of R129; and the base-architecture COP2 words that the model refuses by name (R122). -/

namespace Sys2Proof

/-- A vector register number, `$w0` to `$w31`: "All 32 values of every register field are valid" (R115). -/
abbrev VReg := BitVec 5

/-- A general register number, 0 to 31 (R115). -/
abbrev GReg := BitVec 5

/-- The MXA instructions. An element index or a shift amount is a number; the range the spec gives it is checked by
`Instr.wellFormed` and, in a meaning, by the reserved-encoding line of R356. -/
inductive Instr
  /-- FEXUPLC.W (R219) -/
  | fexuplcW (wd ws wt : VReg)
  /-- FCMUL.W (R154) -/
  | fcmulW (wd ws wt : VReg)
  /-- FEXUPRC.W (R220) -/
  | fexuprcW (wd ws wt : VReg)
  /-- ADDSL.H (R295) -/
  | addslH (wd ws wt : VReg)
  /-- ADDSL.W (R296) -/
  | addslW (wd ws wt : VReg)
  /-- ADDSR.H (R297) -/
  | addsrH (wd ws wt : VReg)
  /-- ADDSR.W (R298) -/
  | addsrW (wd ws wt : VReg)
  /-- ADDUL.H (R299) -/
  | addulH (wd ws wt : VReg)
  /-- ADDUL.W (R300) -/
  | addulW (wd ws wt : VReg)
  /-- ADDUR.H (R301) -/
  | addurH (wd ws wt : VReg)
  /-- ADDUR.W (R302) -/
  | addurW (wd ws wt : VReg)
  /-- SUBSL.H (R321) -/
  | subslH (wd ws wt : VReg)
  /-- SUBSL.W (R322) -/
  | subslW (wd ws wt : VReg)
  /-- SUBSR.H (R323) -/
  | subsrH (wd ws wt : VReg)
  /-- SUBSR.W (R324) -/
  | subsrW (wd ws wt : VReg)
  /-- SUBUL.H (R325) -/
  | subulH (wd ws wt : VReg)
  /-- SUBUL.W (R326) -/
  | subulW (wd ws wt : VReg)
  /-- SUBUR.H (R327) -/
  | suburH (wd ws wt : VReg)
  /-- SUBUR.W (R328) -/
  | suburW (wd ws wt : VReg)
  /-- MULSL.H (R329) -/
  | mulslH (wd ws wt : VReg)
  /-- MULSL.W (R330) -/
  | mulslW (wd ws wt : VReg)
  /-- MULSR.H (R331) -/
  | mulsrH (wd ws wt : VReg)
  /-- MULSR.W (R332) -/
  | mulsrW (wd ws wt : VReg)
  /-- MULUL.H (R333) -/
  | mululH (wd ws wt : VReg)
  /-- MULUL.W (R334) -/
  | mululW (wd ws wt : VReg)
  /-- MULUR.H (R335) -/
  | mulurH (wd ws wt : VReg)
  /-- MULUR.W (R336) -/
  | mulurW (wd ws wt : VReg)
  /-- SLL.V (R185) -/
  | sllV (wd ws wt : VReg)
  /-- BMU.V (R184) -/
  | bmuV (wd ws wt : VReg)
  /-- SRL.V (R187) -/
  | srlV (wd ws wt : VReg)
  /-- SATSS.B (R315) -/
  | satssB (wd ws wt : VReg)
  /-- SATSS.H (R316) -/
  | satssH (wd ws wt : VReg)
  /-- SATUU.B (R319) -/
  | satuuB (wd ws wt : VReg)
  /-- SATUU.H (R320) -/
  | satuuH (wd ws wt : VReg)
  /-- SATUS.B (R317) -/
  | satusB (wd ws wt : VReg)
  /-- SATUS.H (R318) -/
  | satusH (wd ws wt : VReg)
  /-- MOVBT.B (R189) -/
  | movbtB (wd ws wt : VReg)
  /-- MOVBP.B (R190) -/
  | movbpB (wd ws wt : VReg)
  /-- MOVE.W (R280) -/
  | moveW (wd : VReg) (m : Nat) (ws : VReg) (n : Nat)
  /-- STEXTU.W (R257) -/
  | stextuW (wd : VReg) (n : Nat) (base : GReg)
  /-- STEXTU.D (R258) -/
  | stextuD (wd : VReg) (n : Nat) (base : GReg)
  /-- LDINS.W (R248) -/
  | ldinsW (wd : VReg) (n : Nat) (index base : GReg)
  /-- LDINS.D (R249) -/
  | ldinsD (wd : VReg) (n : Nat) (index base : GReg)
  /-- LDINSS.W (R252) -/
  | ldinssW (wd : VReg) (n : Nat) (index base : GReg)
  /-- VSLDI.B (R232) -/
  | vsldiB (wd ws wt : VReg) (n : Nat)
  /-- STEXT.W (R255) -/
  | stextW (wd : VReg) (n : Nat) (index base : GReg)
  /-- STEXT.D (R256) -/
  | stextD (wd : VReg) (n : Nat) (index base : GReg)
  /-- LDINSSU.W (R253) -/
  | ldinssuW (wd : VReg) (n : Nat) (index base : GReg)
  /-- LDINSSU2.W (R254) -/
  | ldinssu2W (wd : VReg) (n : Nat) (index base : GReg)
  /-- LDINSU.W (R250) -/
  | ldinsuW (wd : VReg) (n : Nat) (index base : GReg)
  /-- LDINSU.D (R251) -/
  | ldinsuD (wd : VReg) (n : Nat) (index base : GReg)
  /-- PCNT.V (R172) -/
  | pcntV (wd ws : VReg)
  /-- SLLI.V (R186) -/
  | slliV (wd ws : VReg) (m : Nat)
  /-- SRLI.V (R188) -/
  | srliV (wd ws : VReg) (m : Nat)
  /-- BEXT.B (R174) -/
  | bextB (wd ws : VReg)
  /-- BEXT.H (R175) -/
  | bextH (wd ws : VReg)
  /-- BEXT.W (R176) -/
  | bextW (wd ws : VReg)
  /-- BEXP.B (R178) -/
  | bexpB (wd ws : VReg)
  /-- BEXP.H (R179) -/
  | bexpH (wd ws : VReg)
  /-- BEXP.W (R180) -/
  | bexpW (wd ws : VReg)
  /-- BEXP.2B (R181) -/
  | bexp2B (wd ws : VReg)
  /-- BEXP.4B (R182) -/
  | bexp4B (wd ws : VReg)
  /-- ACCUL.H (R307) -/
  | acculH (wd ws : VReg)
  /-- ACCUL.W (R308) -/
  | acculW (wd ws : VReg)
  /-- ACCUR.H (R309) -/
  | accurH (wd ws : VReg)
  /-- ACCUR.W (R310) -/
  | accurW (wd ws : VReg)
  /-- ACCSL.H (R303) -/
  | accslH (wd ws : VReg)
  /-- ACCSL.W (R304) -/
  | accslW (wd ws : VReg)
  /-- ACCSR.H (R305) -/
  | accsrH (wd ws : VReg)
  /-- ACCSR.W (R306) -/
  | accsrW (wd ws : VReg)
  /-- VSHFR.B (R231) -/
  | vshfrB (wd ws wt wr : VReg)
  /-- BMR.V (R171) -/
  | bmrV (wd ws wt wr : VReg)
  deriving DecidableEq, Repr

/-- The cells of rows 00 and 01 of the `rs` map (R101): COP2 words of the base architecture, which "are not MXA
instructions" and which "a model of this spec refuses" by name (R122). -/
inductive BaseCop2
  | mfc2
  | beta00001
  | cfc2
  | mfhc2
  | mtc2
  | beta00101
  | ctc2
  | mthc2
  | bc2
  | bc2eqz
  | lwc2
  | swc2
  | theta01100
  | bc2nez
  | ldc2
  | sdc2
  deriving DecidableEq, Repr

end Sys2Proof
end

