-- ==== Sys2Proof/WellFormed.lean ====
section
/-! DEFINITION. The checks on an instruction's operands: element indices and shift amounts in the ranges of R31, R114,
R129 and R243. Register numbers need no check (R115). A term that fails one has no encoding; "All invalid index values
or data formats will generate a Reserved Instruction Exception" (R112, R352). -/

namespace Sys2Proof

/-- Every immediate operand is in the range its encoding field admits (R31, R114, R129, R243). -/
def Instr.wellFormed : Instr → Bool
  | .fexuplcW _ _ _ => true
  | .fcmulW _ _ _ => true
  | .fexuprcW _ _ _ => true
  | .addslH _ _ _ => true
  | .addslW _ _ _ => true
  | .addsrH _ _ _ => true
  | .addsrW _ _ _ => true
  | .addulH _ _ _ => true
  | .addulW _ _ _ => true
  | .addurH _ _ _ => true
  | .addurW _ _ _ => true
  | .subslH _ _ _ => true
  | .subslW _ _ _ => true
  | .subsrH _ _ _ => true
  | .subsrW _ _ _ => true
  | .subulH _ _ _ => true
  | .subulW _ _ _ => true
  | .suburH _ _ _ => true
  | .suburW _ _ _ => true
  | .mulslH _ _ _ => true
  | .mulslW _ _ _ => true
  | .mulsrH _ _ _ => true
  | .mulsrW _ _ _ => true
  | .mululH _ _ _ => true
  | .mululW _ _ _ => true
  | .mulurH _ _ _ => true
  | .mulurW _ _ _ => true
  | .sllV _ _ _ => true
  | .bmuV _ _ _ => true
  | .srlV _ _ _ => true
  | .satssB _ _ _ => true
  | .satssH _ _ _ => true
  | .satuuB _ _ _ => true
  | .satuuH _ _ _ => true
  | .satusB _ _ _ => true
  | .satusH _ _ _ => true
  | .movbtB _ _ _ => true
  | .movbpB _ _ _ => true
  | .moveW _ m _ n => decide (m < 4) && decide (n < 4)
  | .stextuW _ n _ => decide (n < 4)
  | .stextuD _ n _ => decide (n < 2)
  | .ldinsW _ n _ _ => decide (n < 4)
  | .ldinsD _ n _ _ => decide (n < 2)
  | .ldinssW _ n _ _ => decide (n < 4)
  | .vsldiB _ _ _ n => decide (n < 16)
  | .stextW _ n _ _ => decide (n < 4)
  | .stextD _ n _ _ => decide (n < 2)
  | .ldinssuW _ n _ _ => decide (n < 4)
  | .ldinssu2W _ n _ _ => decide (n < 8)
  | .ldinsuW _ n _ _ => decide (n < 4)
  | .ldinsuD _ n _ _ => decide (n < 2)
  | .pcntV _ _ => true
  | .slliV _ _ m => decide (m < 32)
  | .srliV _ _ m => decide (m < 32)
  | .bextB _ _ => true
  | .bextH _ _ => true
  | .bextW _ _ => true
  | .bexpB _ _ => true
  | .bexpH _ _ => true
  | .bexpW _ _ => true
  | .bexp2B _ _ => true
  | .bexp4B _ _ => true
  | .acculH _ _ => true
  | .acculW _ _ => true
  | .accurH _ _ => true
  | .accurW _ _ => true
  | .accslH _ _ => true
  | .accslW _ _ => true
  | .accsrH _ _ => true
  | .accsrW _ _ => true
  | .vshfrB _ _ _ _ => true
  | .bmrV _ _ _ _ => true

end Sys2Proof
end

