-- ==== Sys2Proof/Decode.lean ====
section
/-! DEFINITION. Decoding, total on words and on bytes (R100 to R126), and after it the encoder. The decoder is the
procedure of R126 over a table of masks and matches (spec/opcode_table.json); the encoder is written from the formats
and opcode maps of R102 to R121, so that the two check each other. -/

namespace Sys2Proof

/-- The value of bytes in rising order of address, the lowest address least significant. -/
def natOfBytesLE : List Byte → Nat
  | [] => 0
  | b :: bs => b.toNat + 256 * natOfBytesLE bs

/-- The value of the bytes at rising addresses, in the byte order `e` (R72, R73). -/
def natOfBytes (e : Endian) (bs : List Byte) : Nat :=
  match e with
  | .little => natOfBytesLE bs
  | .big => natOfBytesLE bs.reverse

/-- The `n` low bytes of a value, least significant first. -/
def bytesOfNatLE : Nat → Nat → List Byte
  | 0, _ => []
  | n + 1, v => BitVec.ofNat 8 v :: bytesOfNatLE n (v / 256)

/-- The `n` low bytes of a value as they lie at rising addresses, in the byte order `e` (R72, R74). -/
def bytesOfNat (e : Endian) (n v : Nat) : List Byte :=
  match e with
  | .little => bytesOfNatLE n v
  | .big => (bytesOfNatLE n v).reverse

/-- Why a word is outside the MXA: it is refused, neither executed nor trapped (R6, R122, R125). -/
inductive OutsideReason
  /-- bits 31:26 are not COP2 (R6, R126 step 1) -/
  | notCop2
  /-- a COP2 word of the base architecture, by its cell of the `rs` map (R122, R126 step 2) -/
  | baseCop2 (cell : BaseCop2)
  /-- fewer than four bytes -/
  | truncated
  deriving DecidableEq, Repr

/-- The three verdicts of R125. -/
inductive Decoded
  | instr (i : Instr)
  /-- an unallocated word of the MXA's `rs` rows: Reserved Instruction (R124) -/
  | reserved
  | outside (r : OutsideReason)
  deriving DecidableEq, Repr

/-- The cell of rows 00 and 01 of the `rs` map that bits 24:21 select (R101). -/
def baseCop2Cell (rs : BitVec 4) : BaseCop2 :=
  match rs.toNat with
  | 0 => .mfc2
  | 1 => .beta00001
  | 2 => .cfc2
  | 3 => .mfhc2
  | 4 => .mtc2
  | 5 => .beta00101
  | 6 => .ctc2
  | 7 => .mthc2
  | 8 => .bc2
  | 9 => .bc2eqz
  | 10 => .lwc2
  | 11 => .swc2
  | 12 => .theta01100
  | 13 => .bc2nez
  | 14 => .ldc2
  | _ => .sdc2

/-- `wd`, bits 10:6 (R115). -/
def fieldWd (w : Word) : VReg := w.extractLsb' 6 5

/-- `ws`, bits 15:11; the same bits are `index` of ELMC2 and `base` of STEXTU (R115). -/
def fieldWs (w : Word) : VReg := w.extractLsb' 11 5

/-- `wt`, bits 20:16; the same bits are `base` of ELMC2 (R115). -/
def fieldWt (w : Word) : VReg := w.extractLsb' 16 5

/-- `wr`, bits 5:1 of the 4R format (R115). -/
def fieldWr (w : Word) : VReg := w.extractLsb' 1 5

/-- The unsigned immediate of `len` bits whose lowest bit is `lo` (R114). -/
def fieldImm (lo len : Nat) (w : Word) : Nat := (w.extractLsb' lo len).toNat

/-- A row of the opcode table: a word `w` is this instruction when `w AND mask = fixed` (R126 step 3). -/
structure Row where
  mask : Word
  fixed : Word
  build : Word → Instr

/-- The word has the row's fixed bits (R126 step 3). -/
def rowMatches (w : Word) (r : Row) : Bool := w &&& r.mask == r.fixed

/-- The rows of format 3RFC2 (R116). -/
def rows3RF : List Row :=
  [⟨0xFFE0003F#32, 0x4A000000#32, fun w => .fexuplcW (fieldWd w) (fieldWs w) (fieldWt w)⟩,
   ⟨0xFFE0003F#32, 0x4A000006#32, fun w => .fcmulW (fieldWd w) (fieldWs w) (fieldWt w)⟩,
   ⟨0xFFE0003F#32, 0x4A000008#32, fun w => .fexuprcW (fieldWd w) (fieldWs w) (fieldWt w)⟩]

/-- The rows of format 3RC2 with rs 10001 (R118). -/
def rowsWiden : List Row :=
  [⟨0xFFE0003F#32, 0x4A200001#32, fun w => .addslH (fieldWd w) (fieldWs w) (fieldWt w)⟩,
   ⟨0xFFE0003F#32, 0x4A200002#32, fun w => .addslW (fieldWd w) (fieldWs w) (fieldWt w)⟩,
   ⟨0xFFE0003F#32, 0x4A200005#32, fun w => .addsrH (fieldWd w) (fieldWs w) (fieldWt w)⟩,
   ⟨0xFFE0003F#32, 0x4A200006#32, fun w => .addsrW (fieldWd w) (fieldWs w) (fieldWt w)⟩,
   ⟨0xFFE0003F#32, 0x4A200009#32, fun w => .addulH (fieldWd w) (fieldWs w) (fieldWt w)⟩,
   ⟨0xFFE0003F#32, 0x4A20000A#32, fun w => .addulW (fieldWd w) (fieldWs w) (fieldWt w)⟩,
   ⟨0xFFE0003F#32, 0x4A20000D#32, fun w => .addurH (fieldWd w) (fieldWs w) (fieldWt w)⟩,
   ⟨0xFFE0003F#32, 0x4A20000E#32, fun w => .addurW (fieldWd w) (fieldWs w) (fieldWt w)⟩,
   ⟨0xFFE0003F#32, 0x4A200021#32, fun w => .subslH (fieldWd w) (fieldWs w) (fieldWt w)⟩,
   ⟨0xFFE0003F#32, 0x4A200022#32, fun w => .subslW (fieldWd w) (fieldWs w) (fieldWt w)⟩,
   ⟨0xFFE0003F#32, 0x4A200025#32, fun w => .subsrH (fieldWd w) (fieldWs w) (fieldWt w)⟩,
   ⟨0xFFE0003F#32, 0x4A200026#32, fun w => .subsrW (fieldWd w) (fieldWs w) (fieldWt w)⟩,
   ⟨0xFFE0003F#32, 0x4A200029#32, fun w => .subulH (fieldWd w) (fieldWs w) (fieldWt w)⟩,
   ⟨0xFFE0003F#32, 0x4A20002A#32, fun w => .subulW (fieldWd w) (fieldWs w) (fieldWt w)⟩,
   ⟨0xFFE0003F#32, 0x4A20002D#32, fun w => .suburH (fieldWd w) (fieldWs w) (fieldWt w)⟩,
   ⟨0xFFE0003F#32, 0x4A20002E#32, fun w => .suburW (fieldWd w) (fieldWs w) (fieldWt w)⟩,
   ⟨0xFFE0003F#32, 0x4A200031#32, fun w => .mulslH (fieldWd w) (fieldWs w) (fieldWt w)⟩,
   ⟨0xFFE0003F#32, 0x4A200032#32, fun w => .mulslW (fieldWd w) (fieldWs w) (fieldWt w)⟩,
   ⟨0xFFE0003F#32, 0x4A200035#32, fun w => .mulsrH (fieldWd w) (fieldWs w) (fieldWt w)⟩,
   ⟨0xFFE0003F#32, 0x4A200036#32, fun w => .mulsrW (fieldWd w) (fieldWs w) (fieldWt w)⟩,
   ⟨0xFFE0003F#32, 0x4A200039#32, fun w => .mululH (fieldWd w) (fieldWs w) (fieldWt w)⟩,
   ⟨0xFFE0003F#32, 0x4A20003A#32, fun w => .mululW (fieldWd w) (fieldWs w) (fieldWt w)⟩,
   ⟨0xFFE0003F#32, 0x4A20003D#32, fun w => .mulurH (fieldWd w) (fieldWs w) (fieldWt w)⟩,
   ⟨0xFFE0003F#32, 0x4A20003E#32, fun w => .mulurW (fieldWd w) (fieldWs w) (fieldWt w)⟩]

/-- The rows of format 3RC2 with rs 10010 (R117). -/
def rowsVector : List Row :=
  [⟨0xFFE0003F#32, 0x4A400000#32, fun w => .sllV (fieldWd w) (fieldWs w) (fieldWt w)⟩,
   ⟨0xFFE0003F#32, 0x4A400001#32, fun w => .bmuV (fieldWd w) (fieldWs w) (fieldWt w)⟩,
   ⟨0xFFE0003F#32, 0x4A400004#32, fun w => .srlV (fieldWd w) (fieldWs w) (fieldWt w)⟩,
   ⟨0xFFE0003F#32, 0x4A400008#32, fun w => .satssB (fieldWd w) (fieldWs w) (fieldWt w)⟩,
   ⟨0xFFE0003F#32, 0x4A400009#32, fun w => .satssH (fieldWd w) (fieldWs w) (fieldWt w)⟩,
   ⟨0xFFE0003F#32, 0x4A40000C#32, fun w => .satuuB (fieldWd w) (fieldWs w) (fieldWt w)⟩,
   ⟨0xFFE0003F#32, 0x4A40000D#32, fun w => .satuuH (fieldWd w) (fieldWs w) (fieldWt w)⟩,
   ⟨0xFFE0003F#32, 0x4A400010#32, fun w => .satusB (fieldWd w) (fieldWs w) (fieldWt w)⟩,
   ⟨0xFFE0003F#32, 0x4A400011#32, fun w => .satusH (fieldWd w) (fieldWs w) (fieldWt w)⟩,
   ⟨0xFFE0003F#32, 0x4A400020#32, fun w => .movbtB (fieldWd w) (fieldWs w) (fieldWt w)⟩,
   ⟨0xFFE0003F#32, 0x4A400024#32, fun w => .movbpB (fieldWd w) (fieldWs w) (fieldWt w)⟩]

/-- The rows of format ELM2RC2 (R121). -/
def rowsElm2R : List Row :=
  [⟨0xFFFF0030#32, 0x4A800000#32, fun w => .moveW (fieldWd w) (fieldImm 2 2 w) (fieldWs w) (fieldImm 0 2 w)⟩,
   ⟨0xFFFF003C#32, 0x4A810030#32, fun w => .stextuW (fieldWd w) (fieldImm 0 2 w) (fieldWs w)⟩,
   ⟨0xFFFF003E#32, 0x4A810038#32, fun w => .stextuD (fieldWd w) (fieldImm 0 1 w) (fieldWs w)⟩]

/-- The rows of format ELMC2 (R120). -/
def rowsElm : List Row :=
  [⟨0xFFE0003C#32, 0x4AA00030#32, fun w => .ldinsW (fieldWd w) (fieldImm 0 2 w) (fieldWs w) (fieldWt w)⟩,
   ⟨0xFFE0003E#32, 0x4AA00038#32, fun w => .ldinsD (fieldWd w) (fieldImm 0 1 w) (fieldWs w) (fieldWt w)⟩,
   ⟨0xFFE0003C#32, 0x4AA0003C#32, fun w => .ldinssW (fieldWd w) (fieldImm 0 2 w) (fieldWs w) (fieldWt w)⟩,
   ⟨0xFFE00030#32, 0x4AC00000#32, fun w => .vsldiB (fieldWd w) (fieldWs w) (fieldWt w) (fieldImm 0 4 w)⟩,
   ⟨0xFFE0003C#32, 0x4AC00030#32, fun w => .stextW (fieldWd w) (fieldImm 0 2 w) (fieldWs w) (fieldWt w)⟩,
   ⟨0xFFE0003E#32, 0x4AC00038#32, fun w => .stextD (fieldWd w) (fieldImm 0 1 w) (fieldWs w) (fieldWt w)⟩,
   ⟨0xFFE0003C#32, 0x4AC0003C#32, fun w => .ldinssuW (fieldWd w) (fieldImm 0 2 w) (fieldWs w) (fieldWt w)⟩,
   ⟨0xFFE00038#32, 0x4AE00020#32, fun w => .ldinssu2W (fieldWd w) (fieldImm 0 3 w) (fieldWs w) (fieldWt w)⟩,
   ⟨0xFFE0003C#32, 0x4AE00030#32, fun w => .ldinsuW (fieldWd w) (fieldImm 0 2 w) (fieldWs w) (fieldWt w)⟩,
   ⟨0xFFE0003E#32, 0x4AE00038#32, fun w => .ldinsuD (fieldWd w) (fieldImm 0 1 w) (fieldWs w) (fieldWt w)⟩]

/-- The rows of format 2RC2 (R119). -/
def rows2R : List Row :=
  [⟨0xFFFF003F#32, 0x4B400000#32, fun w => .pcntV (fieldWd w) (fieldWs w)⟩,
   ⟨0xFFE0003F#32, 0x4B400038#32, fun w => .slliV (fieldWd w) (fieldWs w) (fieldImm 16 5 w)⟩,
   ⟨0xFFE0003F#32, 0x4B40003C#32, fun w => .srliV (fieldWd w) (fieldWs w) (fieldImm 16 5 w)⟩,
   ⟨0xFFFF003F#32, 0x4B410000#32, fun w => .bextB (fieldWd w) (fieldWs w)⟩,
   ⟨0xFFFF003F#32, 0x4B410001#32, fun w => .bextH (fieldWd w) (fieldWs w)⟩,
   ⟨0xFFFF003F#32, 0x4B410002#32, fun w => .bextW (fieldWd w) (fieldWs w)⟩,
   ⟨0xFFFF003F#32, 0x4B420000#32, fun w => .bexpB (fieldWd w) (fieldWs w)⟩,
   ⟨0xFFFF003F#32, 0x4B420001#32, fun w => .bexpH (fieldWd w) (fieldWs w)⟩,
   ⟨0xFFFF003F#32, 0x4B420002#32, fun w => .bexpW (fieldWd w) (fieldWs w)⟩,
   ⟨0xFFFF003F#32, 0x4B430000#32, fun w => .bexp2B (fieldWd w) (fieldWs w)⟩,
   ⟨0xFFFF003F#32, 0x4B430001#32, fun w => .bexp4B (fieldWd w) (fieldWs w)⟩,
   ⟨0xFFFF003F#32, 0x4B450001#32, fun w => .acculH (fieldWd w) (fieldWs w)⟩,
   ⟨0xFFFF003F#32, 0x4B450002#32, fun w => .acculW (fieldWd w) (fieldWs w)⟩,
   ⟨0xFFFF003F#32, 0x4B460001#32, fun w => .accurH (fieldWd w) (fieldWs w)⟩,
   ⟨0xFFFF003F#32, 0x4B460002#32, fun w => .accurW (fieldWd w) (fieldWs w)⟩,
   ⟨0xFFFF003F#32, 0x4B470001#32, fun w => .accslH (fieldWd w) (fieldWs w)⟩,
   ⟨0xFFFF003F#32, 0x4B470002#32, fun w => .accslW (fieldWd w) (fieldWs w)⟩,
   ⟨0xFFFF003F#32, 0x4B480001#32, fun w => .accsrH (fieldWd w) (fieldWs w)⟩,
   ⟨0xFFFF003F#32, 0x4B480002#32, fun w => .accsrW (fieldWd w) (fieldWs w)⟩]

/-- The rows of format 4R (R108). -/
def rows4R : List Row :=
  [⟨0xFFE00001#32, 0x4BA00000#32, fun w => .vshfrB (fieldWd w) (fieldWs w) (fieldWt w) (fieldWr w)⟩,
   ⟨0xFFE00001#32, 0x4BA00001#32, fun w => .bmrV (fieldWd w) (fieldWs w) (fieldWt w) (fieldWr w)⟩]

/-- The opcode table: "at most one row matches" a word (R126). -/
def opcodeRows : List Row :=
  rows3RF ++ rowsWiden ++ rowsVector ++ rowsElm2R ++ rowsElm ++ rows2R ++ rows4R

/-- The decode procedure of R126. -/
def decode (w : Word) : Decoded :=
  if w.extractLsb' 26 6 ≠ 0b010010#6 then .outside .notCop2
  else if w.getLsbD 25 = false then .outside (.baseCop2 (baseCop2Cell (w.extractLsb' 21 4)))
  else
    match opcodeRows.find? (rowMatches w) with
    | some r => .instr (r.build w)
    | none => .reserved

/-- The instruction at the head of some bytes, in the byte order `e`, and the bytes after it: every instruction is one
32-bit word (R77, R100). -/
def decodeBytes (e : Endian) : List Byte → Decoded × List Byte
  | b0 :: b1 :: b2 :: b3 :: rest => (decode (BitVec.ofNat 32 (natOfBytes e [b0, b1, b2, b3])), rest)
  | bs => (.outside .truncated, bs)

/-- The instruction that the decoder reads from a word of `nbits` bits numbered as spec/opcode_table.json numbers them,
stored in the default byte order (R72). -/
def decodeTableWord (nbits w : Nat) : Option Instr :=
  match (decodeBytes .little (bytesOfNat .little 4 (w % 2 ^ nbits))).1 with
  | .instr i => some i
  | .reserved => none
  | .outside _ => none

/-! ## The encoder -/

/-- Format 3RFC2, rs = 10000 (R102). -/
def enc3RF (wt ws wd : VReg) (funct : BitVec 5) (df : BitVec 1) : Word :=
  0b010010#6 ++ 0b10000#5 ++ wt ++ ws ++ wd ++ funct ++ df

/-- Format 3RC2, rs = 10001 or 10010 (R103). -/
def enc3R (rs : BitVec 5) (wt ws wd : VReg) (funct : BitVec 4) (df : BitVec 2) : Word :=
  0b010010#6 ++ rs ++ wt ++ ws ++ wd ++ funct ++ df

/-- Format 2RC2, rs = 11010, with funct1 or the immediate m in bits 20:16 (R104, R105). -/
def enc2R (funct1 : BitVec 5) (ws wd : VReg) (funct0 : BitVec 4) (df : BitVec 2) : Word :=
  0b010010#6 ++ 0b11010#5 ++ funct1 ++ ws ++ wd ++ funct0 ++ df

/-- Formats ELMC2 and ELM2RC2: bits 20:16 and 15:11 are registers or a function code, bits 5:0 are df/n (R106, R107). -/
def encElm (rs high middle wd : BitVec 5) (dfn : BitVec 6) : Word :=
  0b010010#6 ++ rs ++ high ++ middle ++ wd ++ dfn

/-- Format 4R, rs = 11101 (R108). -/
def enc4R (wt ws wd wr : VReg) (op : BitVec 1) : Word :=
  0b010010#6 ++ 0b11101#5 ++ wt ++ ws ++ wd ++ wr ++ op

/-- df/n of the byte format, `00nnnn` (R112). -/
def dfnByte (n : Nat) : BitVec 6 := 0b00#2 ++ BitVec.ofNat 4 n

/-- df/n of the halfword code, `100nnn` (R112). -/
def dfnHalf (n : Nat) : BitVec 6 := 0b100#3 ++ BitVec.ofNat 3 n

/-- df/n of the word format, `1100nn` (R112). -/
def dfnWord (n : Nat) : BitVec 6 := 0b1100#4 ++ BitVec.ofNat 2 n

/-- df/n of the doubleword format, `11100n` (R112). -/
def dfnDouble (n : Nat) : BitVec 6 := 0b11100#5 ++ BitVec.ofNat 1 n

/-- df/n of the sparse word, `1111nn` (R112). -/
def dfnSparse (n : Nat) : BitVec 6 := 0b1111#4 ++ BitVec.ofNat 2 n

/-- The word of a well-formed instruction, from the opcode maps of R116 to R121 and R108. -/
def encode : Instr → Word
  | .fexuplcW wd ws wt => enc3RF wt ws wd 0b00000#5 0b0#1
  | .fcmulW wd ws wt => enc3RF wt ws wd 0b00011#5 0b0#1
  | .fexuprcW wd ws wt => enc3RF wt ws wd 0b00100#5 0b0#1
  | .addslH wd ws wt => enc3R 0b10001#5 wt ws wd 0b0000#4 0b01#2
  | .addslW wd ws wt => enc3R 0b10001#5 wt ws wd 0b0000#4 0b10#2
  | .addsrH wd ws wt => enc3R 0b10001#5 wt ws wd 0b0001#4 0b01#2
  | .addsrW wd ws wt => enc3R 0b10001#5 wt ws wd 0b0001#4 0b10#2
  | .addulH wd ws wt => enc3R 0b10001#5 wt ws wd 0b0010#4 0b01#2
  | .addulW wd ws wt => enc3R 0b10001#5 wt ws wd 0b0010#4 0b10#2
  | .addurH wd ws wt => enc3R 0b10001#5 wt ws wd 0b0011#4 0b01#2
  | .addurW wd ws wt => enc3R 0b10001#5 wt ws wd 0b0011#4 0b10#2
  | .subslH wd ws wt => enc3R 0b10001#5 wt ws wd 0b1000#4 0b01#2
  | .subslW wd ws wt => enc3R 0b10001#5 wt ws wd 0b1000#4 0b10#2
  | .subsrH wd ws wt => enc3R 0b10001#5 wt ws wd 0b1001#4 0b01#2
  | .subsrW wd ws wt => enc3R 0b10001#5 wt ws wd 0b1001#4 0b10#2
  | .subulH wd ws wt => enc3R 0b10001#5 wt ws wd 0b1010#4 0b01#2
  | .subulW wd ws wt => enc3R 0b10001#5 wt ws wd 0b1010#4 0b10#2
  | .suburH wd ws wt => enc3R 0b10001#5 wt ws wd 0b1011#4 0b01#2
  | .suburW wd ws wt => enc3R 0b10001#5 wt ws wd 0b1011#4 0b10#2
  | .mulslH wd ws wt => enc3R 0b10001#5 wt ws wd 0b1100#4 0b01#2
  | .mulslW wd ws wt => enc3R 0b10001#5 wt ws wd 0b1100#4 0b10#2
  | .mulsrH wd ws wt => enc3R 0b10001#5 wt ws wd 0b1101#4 0b01#2
  | .mulsrW wd ws wt => enc3R 0b10001#5 wt ws wd 0b1101#4 0b10#2
  | .mululH wd ws wt => enc3R 0b10001#5 wt ws wd 0b1110#4 0b01#2
  | .mululW wd ws wt => enc3R 0b10001#5 wt ws wd 0b1110#4 0b10#2
  | .mulurH wd ws wt => enc3R 0b10001#5 wt ws wd 0b1111#4 0b01#2
  | .mulurW wd ws wt => enc3R 0b10001#5 wt ws wd 0b1111#4 0b10#2
  | .sllV wd ws wt => enc3R 0b10010#5 wt ws wd 0b0000#4 0b00#2
  | .bmuV wd ws wt => enc3R 0b10010#5 wt ws wd 0b0000#4 0b01#2
  | .srlV wd ws wt => enc3R 0b10010#5 wt ws wd 0b0001#4 0b00#2
  | .satssB wd ws wt => enc3R 0b10010#5 wt ws wd 0b0010#4 0b00#2
  | .satssH wd ws wt => enc3R 0b10010#5 wt ws wd 0b0010#4 0b01#2
  | .satuuB wd ws wt => enc3R 0b10010#5 wt ws wd 0b0011#4 0b00#2
  | .satuuH wd ws wt => enc3R 0b10010#5 wt ws wd 0b0011#4 0b01#2
  | .satusB wd ws wt => enc3R 0b10010#5 wt ws wd 0b0100#4 0b00#2
  | .satusH wd ws wt => enc3R 0b10010#5 wt ws wd 0b0100#4 0b01#2
  | .movbtB wd ws wt => enc3R 0b10010#5 wt ws wd 0b1000#4 0b00#2
  | .movbpB wd ws wt => enc3R 0b10010#5 wt ws wd 0b1001#4 0b00#2
  | .moveW wd m ws n => encElm 0b10100#5 0b00000#5 ws wd (0b00#2 ++ BitVec.ofNat 2 m ++ BitVec.ofNat 2 n)
  | .stextuW wd n base => encElm 0b10100#5 0b00001#5 base wd (dfnWord n)
  | .stextuD wd n base => encElm 0b10100#5 0b00001#5 base wd (dfnDouble n)
  | .ldinsW wd n index base => encElm 0b10101#5 base index wd (dfnWord n)
  | .ldinsD wd n index base => encElm 0b10101#5 base index wd (dfnDouble n)
  | .ldinssW wd n index base => encElm 0b10101#5 base index wd (dfnSparse n)
  | .vsldiB wd ws wt n => encElm 0b10110#5 wt ws wd (dfnByte n)
  | .stextW wd n index base => encElm 0b10110#5 base index wd (dfnWord n)
  | .stextD wd n index base => encElm 0b10110#5 base index wd (dfnDouble n)
  | .ldinssuW wd n index base => encElm 0b10110#5 base index wd (dfnSparse n)
  | .ldinssu2W wd n index base => encElm 0b10111#5 base index wd (dfnHalf n)
  | .ldinsuW wd n index base => encElm 0b10111#5 base index wd (dfnWord n)
  | .ldinsuD wd n index base => encElm 0b10111#5 base index wd (dfnDouble n)
  | .pcntV wd ws => enc2R 0b00000#5 ws wd 0b0000#4 0b00#2
  | .slliV wd ws m => enc2R (BitVec.ofNat 5 m) ws wd 0b1110#4 0b00#2
  | .srliV wd ws m => enc2R (BitVec.ofNat 5 m) ws wd 0b1111#4 0b00#2
  | .bextB wd ws => enc2R 0b00001#5 ws wd 0b0000#4 0b00#2
  | .bextH wd ws => enc2R 0b00001#5 ws wd 0b0000#4 0b01#2
  | .bextW wd ws => enc2R 0b00001#5 ws wd 0b0000#4 0b10#2
  | .bexpB wd ws => enc2R 0b00010#5 ws wd 0b0000#4 0b00#2
  | .bexpH wd ws => enc2R 0b00010#5 ws wd 0b0000#4 0b01#2
  | .bexpW wd ws => enc2R 0b00010#5 ws wd 0b0000#4 0b10#2
  | .bexp2B wd ws => enc2R 0b00011#5 ws wd 0b0000#4 0b00#2
  | .bexp4B wd ws => enc2R 0b00011#5 ws wd 0b0000#4 0b01#2
  | .acculH wd ws => enc2R 0b00101#5 ws wd 0b0000#4 0b01#2
  | .acculW wd ws => enc2R 0b00101#5 ws wd 0b0000#4 0b10#2
  | .accurH wd ws => enc2R 0b00110#5 ws wd 0b0000#4 0b01#2
  | .accurW wd ws => enc2R 0b00110#5 ws wd 0b0000#4 0b10#2
  | .accslH wd ws => enc2R 0b00111#5 ws wd 0b0000#4 0b01#2
  | .accslW wd ws => enc2R 0b00111#5 ws wd 0b0000#4 0b10#2
  | .accsrH wd ws => enc2R 0b01000#5 ws wd 0b0000#4 0b01#2
  | .accsrW wd ws => enc2R 0b01000#5 ws wd 0b0000#4 0b10#2
  | .vshfrB wd ws wt wr => enc4R wt ws wd wr 0b0#1
  | .bmrV wd ws wt wr => enc4R wt ws wd wr 0b1#1

end Sys2Proof
end

