-- ==== Sys2Proof/Machine/State.lean ====
section
/-! DEFINITION. The state of the machine as plain data, the reasons a step can stop, and the state after reset
(R30 to R59, R400 to R402). -/

namespace Sys2Proof.Machine

/-- Memory: the bytes that hold a value, by address, in rising order (R54). An unlisted address holds no value (log 18). -/
abbrev Memory := List Host.Cell

/-- What a range of addresses is. -/
inductive RegionKind
  /-- ordinary idempotent memory that the program may touch: the launch memory (R79, R81) -/
  | memory
  /-- a device: "an access to a device region is outside the admitted subset" (R79) -/
  | device
  deriving DecidableEq, Repr

/-- `size` addresses from `base` on. -/
structure Region where
  base : Nat
  size : Nat
  kind : RegionKind
  deriving DecidableEq, Repr

/-- The program text: `words` instruction words at consecutive word addresses from `first` on (R85, R409). -/
structure Text where
  first : Addr
  words : Nat
  deriving DecidableEq, Repr

/-- The exceptions an MXA instruction can raise, with the address an Address Error records (R350, R360). -/
inductive Exc
  | addressErrorLoad (vaddr : Addr)
  | addressErrorStore (vaddr : Addr)
  | reservedInstruction
  | mxaDisabled
  deriving DecidableEq, Repr

/-- The outcome `Trap(code, EPC, BadVAddr if any)` of a run that an exception has ended (R359, R409 b). -/
structure Trap where
  code : BitVec 5
  epc : Addr
  badVAddr : Option Addr
  deriving DecidableEq, Repr

/-- The machine stops without an exception of its own. -/
inductive Fault
  /-- Raised by step: the pc is the address just past the last word of the text, the run's outcome `Done` (R409 a).
  Safe: nothing runs after it. -/
  | runDone
  /-- Raised by step once an exception has been taken: the run has ended at the raise, and nothing executes from the
  vector (R359, R409 b, U21). Safe: nothing runs after it. -/
  | runTrap (trap : Trap)
  /-- Raised by a load or a fetch of a byte that neither the launch state nor an instruction has written (R59, U13).
  Safe: the hardware goes on with some value. -/
  | unwrittenByte
  /-- Raised by a load or store outside the launch memory: "an access outside it has no meaning in this spec" (R81).
  Safe: the hardware may go on. -/
  | outsideLaunchMemory
  /-- Raised by a load or store whose address `translate` does not map (R80). Safe: no state is changed and no cause
  code is invented. -/
  | translation
  deriving DecidableEq, Repr

/-- No meaning in the admitted subset (R6, R409 c). -/
inductive Refusal
  /-- Raised by an arm of exec that has no meaning yet; no arm does. Safe. -/
  | notModelled (mnemonic : String)
  /-- Raised by step on a word that is not an MXA instruction and not a reserved word of its rows (R6, R122). Safe. -/
  | outsideMxa (reason : OutsideReason)
  /-- Raised by step on a pc that is not a multiple of 4 (R77). Safe. -/
  | misalignedPc
  /-- Raised by step on a pc that is neither in the text nor just past it (R409 c). Safe. -/
  | outsideText
  /-- Raised by step on an instruction in a delay slot of the base architecture (R36, R404). Safe. -/
  | delaySlot
  /-- Raised by a store into an address that holds program text (R85). Safe. -/
  | storeIntoText
  /-- Raised by a load or store of a device region (R79, U14). Safe. -/
  | deviceRegion
  /-- Raised by every MXA instruction that would execute with MSAIR.WRP = 1: the mechanism of register partitioning is
  not in the source (R353, D17). Safe. -/
  | partitioning
  /-- Raised by every MXA word with `REQUIRE_CU2` set and Status.CU2 = 0 (R367, U19). Safe. -/
  | cu2Clear
  /-- Raised by an exception with Status.EXL = 1 (R363, U23). Safe. -/
  | trapWhileExl
  deriving DecidableEq, Repr

/-- The machine's state: the architectural state of R30 to R57, the launch-time inputs (launch memory, text, delay
slot), the run's outcome Trap, the parameters of R7, and the model's own count of draws. -/
structure State where
  /-- `WR[0]` to `WR[31]` (R30) -/
  wr : Vector Vec 32
  /-- `GPR[0]` to `GPR[31]`, each of `GPRLEN` bits (R34); read and written through `readGpr` and `writeGpr` (R35) -/
  gpr : Vector Addr 32
  /-- the program counter, of `GPRLEN` bits (R36) -/
  pc : Addr
  /-- MSACSR, control register 31 (R38) -/
  msacsr : Word
  /-- CP0 register 16 select 3; bit 28 is MSAP (R49) -/
  config3 : Word
  /-- CP0 register 16 select 5; bit 27 is MSAEn (R50) -/
  config5 : Word
  /-- CP0 register 12 select 0; bit 29 is CU1, bit 26 is FR (R51), EXL and CU2 (log 3) -/
  status : Word
  /-- CP0 Cause; ExcCode is bits 6:2 (R52), BD (log 3) -/
  cause : Word
  /-- EPC (R359) -/
  epc : Addr
  /-- BadVAddr (R359) -/
  badVAddr : Addr
  /-- the bytes of memory that hold a value (R54) -/
  mem : Memory
  /-- the launch memory and the device regions (R79, R81) -/
  launchMemory : List Region
  /-- the program text (R85, R409) -/
  text : Text
  /-- the instruction at the pc stands in a delay slot of the base architecture (R36, R404) -/
  inDelaySlot : Bool
  /-- the outcome of the run, if an exception has ended it (R359, R409 b; log 23) -/
  trap : Option Trap
  /-- the model's own: how many unspecified values have been drawn (log 12) -/
  draws : Nat
  /-- the implementation's parameters (R7) -/
  params : Params
  deriving DecidableEq, Repr

/-- What a step or a meaning answers. -/
abbrev Result := Host.Outcome State Fault Refusal

/-- The parameters at their defaults (R7); where the spec chooses no default, a constant that nothing evaluates
(log 7, log 8). -/
def defaultParams : Params where
  gprLen := .w32
  endian := .little
  bmuSrcIndex := .i
  xhsZeroSign := .copy
  sparseIncWraps := Config.sparseIncWraps
  requireCU2 := false
  genExcVector := (Config.genExcVectorIndex ++ 0b00#2).setWidth 64
  msairWrp := false
  msairProcId := Config.msairProcId
  msairVersion := Config.msairVersion
  translation := []

/-- The machine right after reset. The spec states only read-only bits (R58, R400); every other value is a choice of
the log (rows 1 to 5, 7, 8, 12, 18, 19, 21, 31), under which the launch premise of R402 holds. -/
def State.reset : State where
  wr := Vector.replicate 32 0#128
  gpr := Vector.replicate 32 0#64
  pc := 0xBFC00000#64
  msacsr := 0#32
  config3 := 0x10000000#32
  config5 := 0x08000000#32
  status := 0x00400004#32
  cause := 0#32
  epc := 0#64
  badVAddr := 0#64
  mem := []
  launchMemory := [⟨0, 2 ^ 32, .memory⟩]
  text := ⟨0xBFC00000#64, 0⟩
  inDelaySlot := false
  trap := none
  draws := 0
  params := defaultParams

end Sys2Proof.Machine
end

