-- ==== Sys2Proof/Machine/Operands.lean ====
section
/-! DEFINITION. Operand views and value functions: values modulo `2^GPRLEN` (R10, R70), elements and halves of a vector register (R14, R15), extension
(R292), saturation (R311 to R313), bit and byte selection (R173, R177, R183, R189, R190), the single-precision classes
(R150 to R153), the XHS format (R210 to R218) and the sparse offsets (R246, R247). -/

namespace Sys2Proof.Machine

/-! ## General registers and addresses -/

/-- `GPRLEN` as a number (R7). -/
def gprBits : GprLen → Nat
  | .w32 => 32
  | .w64 => 64

/-- A value modulo `2^GPRLEN` (R10, R70). -/
def wrap (g : GprLen) (v : Addr) : Addr :=
  match g with
  | .w32 => (v.setWidth 32).setWidth 64
  | .w64 => v

/-! ## Elements -/

/-- Element `i` of width `w`: bits `w*i+w-1 : w*i` (R14). -/
def elem {N : Nat} (w : Nat) (x : BitVec N) (i : Nat) : BitVec w := x.extractLsb' (w * i) w

/-- The `N`-bit string whose element `i` of width `w` is `f i`, for `i` below the last argument; zeros above. -/
def lanes (N w : Nat) (f : Nat → BitVec w) : Nat → BitVec N
  | 0 => 0#N
  | n + 1 => lanes N w f n ||| ((f n).setWidth N <<< (w * n))

/-- A vector register with element `n` of width `w` replaced and every other bit kept (R244, R280). -/
def setElem (w : Nat) (x : Vec) (n : Nat) (v : BitVec w) : Vec :=
  lanes 128 w (fun i => if i = n then v else elem w x i) (128 / w)

/-- The half of a source register that a widening instruction or an up-conversion reads (R15). -/
inductive Half
  | left
  | right
  deriving DecidableEq, Repr

/-- The lowest bit of the half: 64 for the left half, 0 for the right half (R15, R291). -/
def halfOffset : Half → Nat
  | .left => 64
  | .right => 0

/-- Element `i` of width `w` of a half (R15, R291). -/
def halfElem (h : Half) (w : Nat) (x : Vec) (i : Nat) : BitVec w := x.extractLsb' (w * i + halfOffset h) w

/-! ## Widening arithmetic and saturation -/

/-- Signed or unsigned extension, the fourth letter of a widening mnemonic (R292). -/
inductive Extension
  | signed
  | unsigned
  deriving DecidableEq, Repr

/-- Extension of a source element to the destination width `v` (R292). -/
def extend (e : Extension) {w : Nat} (v : Nat) (a : BitVec w) : BitVec v :=
  match e with
  | .signed => a.signExtend v
  | .unsigned => a.setWidth v

/-- The widening template for ADD, SUB and MUL: source width `w`, destination width `2*w`, `64/w` elements (R294). -/
def widen (e : Extension) (h : Half) (w : Nat) (op : BitVec (2 * w) → BitVec (2 * w) → BitVec (2 * w)) (s t : Vec) : Vec :=
  lanes 128 (2 * w) (fun i => op (extend e (2 * w) (halfElem h w s i)) (extend e (2 * w) (halfElem h w t i))) (64 / w)

/-- The widening template for ACC: `d` is the old destination, the accumulator (R294). -/
def accumulate (e : Extension) (h : Half) (w : Nat) (s d : Vec) : Vec :=
  lanes 128 (2 * w) (fun i => extend e (2 * w) (halfElem h w s i) + elem (2 * w) d i) (64 / w)

/-- `saturate_signed_s(a, w)` (R311). -/
def saturateSignedS (w : Nat) (a : BitVec (2 * w)) : BitVec w :=
  if a.getLsbD (2 * w - 1) = false ∧ a.extractLsb' (w - 1) w ≠ 0#w then ~~~(1#w <<< (w - 1))
  else if a.getLsbD (2 * w - 1) = true ∧ a.extractLsb' (w - 1) w ≠ BitVec.allOnes w then 1#w <<< (w - 1)
  else a.extractLsb' 0 w

/-- `saturate_unsigned_s(a, w)` (R312). -/
def saturateUnsignedS (w : Nat) (a : BitVec (2 * w)) : BitVec w :=
  if a.getLsbD (2 * w - 1) = false ∧ a.extractLsb' w (w - 1) ≠ 0#(w - 1) then BitVec.allOnes w
  else if a.getLsbD (2 * w - 1) = true then 0#w
  else a.extractLsb' 0 w

/-- `saturate_unsigned_u(a, w)` (R313). -/
def saturateUnsignedU (w : Nat) (a : BitVec (2 * w)) : BitVec w :=
  if a.extractLsb' w w ≠ 0#w then BitVec.allOnes w
  else a.extractLsb' 0 w

/-- The SAT template: the elements of `WR[ws] || WR[wt]`, each narrowed in place order (R314). -/
def narrow (w : Nat) (sat : BitVec (2 * w) → BitVec w) (s t : Vec) : Vec :=
  lanes 128 w (fun i => sat (elem (2 * w) (s ++ t) i)) (128 / w)

/-! ## Bits and bytes -/

/-- The number of ones among bits `0` to `n-1`. -/
def countOnes {N : Nat} (x : BitVec N) : Nat → Nat
  | 0 => 0
  | n + 1 => countOnes x n + (x.getLsbD n).toNat

/-- `bit_extract(a, w)` (R173). -/
def bitExtract (w : Nat) (a : Vec) : Vec :=
  lanes 128 1 (fun i => BitVec.ofBool (a.getLsbD (w * i + w - 1))) (128 / w)

/-- `bit_expand(a, w)` (R177). -/
def bitExpand (w : Nat) (a : Vec) : Vec :=
  lanes 128 w (fun i => if a.getLsbD i then BitVec.allOnes w else 0#w) (128 / w)

/-- `bit_mask_update(a, b, c)`: the bits of `b` up to `c[3:0]` that are 1 take a bit of `a`, bit `i` or the bit that
counts the set positions below, by `BMU_SRC_INDEX` (R183, R184). -/
def bitMaskUpdate (src : BmuSrcIndex) (a b c : Vec) : Vec :=
  lanes 128 1
    (fun i => BitVec.ofBool <|
      if i ≤ (c.extractLsb' 0 4).toNat then
        b.getLsbD i && (match src with
          | .i => a.getLsbD i
          | .j => a.getLsbD (countOnes b i))
      else b.getLsbD i)
    128

/-- The bytes of `a` whose mask bit in the low 16 bits of `b` is 1, in rising order (R189). -/
def selectedBytes (a b : Vec) : List Byte := ((List.range 16).filter fun i => b.getLsbD i).map (elem 8 a)

/-- `move_extract(a, b, 8)`: the selected bytes packed into the low bytes (R189). -/
def moveExtract (a b : Vec) : Vec := lanes 128 8 (fun j => (selectedBytes a b).getD j 0#8) 16

/-- `move_expand(a, b, 8)`: the low bytes dealt out to the positions whose mask bit is 1 (R190). -/
def moveExpand (a b : Vec) : Vec :=
  lanes 128 8 (fun i => if b.getLsbD i then elem 8 a (countOnes b i) else 0#8) 16

/-- The shift amount of SLL.V and SRL.V: bits 6:0 (R185, R187). -/
def shiftAmount (c : Vec) : Nat := (c.extractLsb' 0 7).toNat

/-- The byte shuffle of VSHFR.B: `c` holds the control bytes (R231). -/
def shuffleBytes (s t c : Vec) : Vec :=
  lanes 128 8
    (fun i =>
      let k := elem 8 c i
      if k.extractLsb' 6 2 ≠ 0b00#2 then 0x00#8 else elem 8 (s ++ t) ((k.extractLsb' 0 6).toNat % 32))
    16

/-- The byte slide of VSLDI.B: byte `i` is byte `i + n` of `WR[wt] || WR[ws]` (R232). -/
def slideBytes (s t : Vec) (n : Nat) : Vec := lanes 128 8 (fun i => elem 8 (t ++ s) (i + n)) 16

/-! ## Single precision (R150 to R153) -/

/-- The sign bit, `x[31]`. -/
def fpSign (x : Word) : Bool := x.getLsbD 31

/-- The exponent field, `x[30:23]`. -/
def fpExp (x : Word) : Nat := (x.extractLsb' 23 8).toNat

/-- The fraction, `x[22:0]`. -/
def fpFrac (x : Word) : Nat := (x.extractLsb' 0 23).toNat

/-- `isnan` (R150). -/
def isNaN (x : Word) : Bool := fpExp x == 255 && fpFrac x != 0

/-- `isinf` (R150). -/
def isInf (x : Word) : Bool := fpExp x == 255 && fpFrac x == 0

/-- `isdenormal` (R150). -/
def isDenormal (x : Word) : Bool := fpExp x == 0 && fpFrac x != 0

/-- A zero of either sign. -/
def isZero (x : Word) : Bool := fpExp x == 0 && fpFrac x == 0

/-- A bit pattern from its three fields. -/
def fpPack (sign : Bool) (exp : BitVec 8) (frac : BitVec 23) : Word := BitVec.ofBool sign ++ exp ++ frac

/-- A zero with the given sign. -/
def fpZero (sign : Bool) : Word := fpPack sign 0#8 0#23

/-- An infinity with the given sign. -/
def fpInf (sign : Bool) : Word := fpPack sign 0xFF#8 0#23

/-- The largest finite number with the given sign, 0x7F7FFFFF or 0xFF7FFFFF (R151, R153). -/
def fpMax (sign : Bool) : Word := fpPack sign 0xFE#8 (BitVec.allOnes 23)

/-- `operand_saturate` (R152). -/
def operandSaturate (a : Word) : Word := if isDenormal a then fpZero (fpSign a) else a

/-- `operand_update`, in its three-way form (R153, C8). -/
def operandUpdate (a : Word) : Word :=
  if isInf a || isNaN a then fpMax (fpSign a)
  else if isDenormal a then fpZero (fpSign a)
  else a

/-- The magnitude of a finite number in units of 2^-149: `fraction` for exponent field 0, else
`(2^23 + fraction) * 2^(exponent - 1)` (R150). -/
def fpMag (x : Word) : Nat := if fpExp x = 0 then fpFrac x else (2 ^ 23 + fpFrac x) * 2 ^ (fpExp x - 1)

/-- The largest finite magnitude, (2 - 2^-23) * 2^127, in units of 2^-298, the unit of a product of two magnitudes. -/
def fpMaxMag : Nat := (2 ^ 24 - 1) * 2 ^ 402

/-- The normal number of the given sign whose magnitude is exactly `m` units of 2^-298, where there is one. -/
def fpExact (sign : Bool) (m : Nat) : Option Word :=
  if 172 ≤ m.log2 ∧ m.log2 ≤ 425 ∧ m % 2 ^ (m.log2 - 23) = 0 then
    some (fpPack sign (BitVec.ofNat 8 (m.log2 - 171)) (BitVec.ofNat 23 (m / 2 ^ (m.log2 - 23))))
  else none

/-- A magnitude that is zero or exactly a normal number (R156 ii). -/
def fpExactOrZero (m : Nat) : Bool := m == 0 || (fpExact false m).isSome

/-- The exact sum of two signed magnitudes, as a sign and a magnitude. -/
def addSigned (n : Bool) (a : Nat) (m : Bool) (b : Nat) : Bool × Nat :=
  if n = m then (n, a + b) else if b ≤ a then (n, a - b) else (m, b - a)

/-- The sum of two exact products that are each zero or normal, where both are finite: an exact zero keeps an open
sign (R156 e); a magnitude out of range overflows, one below the normal range is subnormal (R154); a normal one is the
result (R156 ii); one that needs rounding is `free` (R156 a, b). -/
def fcmulSum (free : Word) (sum : Bool × Nat) : Word :=
  if sum.2 = 0 then fpZero (fpSign free)
  else if fpMaxMag < sum.2 then fpInf sum.1
  else if sum.2 < 2 ^ 172 then fpPack sum.1 0#8 (BitVec.ofNat 23 (sum.2 / 2 ^ 149))
  else (fpExact sum.1 sum.2).getD free

/-- `p*q ± r*s` for finite inputs; `np` and `nr` are the signs of the two terms, `pq` and `rs` their magnitudes in units
of 2^-298. Two zero terms give a zero, of their sign where they agree (R156 iii); a term that overflows and that the
other does not cancel decides the result (R158 1, log 10). -/
def fcmulFinite (free : Word) (np : Bool) (pq : Nat) (nr : Bool) (rs : Nat) : Word :=
  if pq = 0 ∧ rs = 0 then fpZero (if np = nr then np else fpSign free)
  else if fpMaxMag < pq ∧ (rs = 0 ∨ nr = np) then fpInf np
  else if fpMaxMag < rs ∧ (pq = 0 ∨ nr = np) then fpInf nr
  else if fpExactOrZero pq && fpExactOrZero rs then fcmulSum free (addSigned np pq nr rs)
  else free

/-- `fcmul_arith(p, q, r, s, subtract)`: the unsaturated `p*q + r*s` or `p*q - r*s` (R156). What the spec leaves open is
the constant `Config.fcmulOpen`; an infinite or NaN operand "enters the arithmetic as IEEE infinity or NaN" (R152),
and the sign of a NaN is open (R156 d). An infinite term against a finite one of the other sign that overflows is the
infinity or, where the products are rounded first, Inf - Inf, a NaN: its sign too is open (R156 a, b, d; log 11). -/
def fcmulArith (rm : BitVec 2) (p q r s : Word) (subtract : Bool) : Word :=
  let free := Config.fcmulOpen rm p q r s subtract
  let np := fpSign p ^^ fpSign q
  let nr := (fpSign r ^^ fpSign s) ^^ subtract
  let infP := isInf p || isInf q
  let infR := isInf r || isInf s
  let pq := fpMag p * fpMag q
  let rs := fpMag r * fpMag s
  if isNaN p || isNaN q || isNaN r || isNaN s
      || (isInf p && isZero q) || (isZero p && isInf q) || (isInf r && isZero s) || (isZero r && isInf s)
      || (np != nr && (infP && (infR || fpMaxMag < rs) || infR && fpMaxMag < pq)) then
    fpPack (fpSign free) 0xFF#8 (BitVec.allOnes 23)
  else if infP then fpInf np
  else if infR then fpInf nr
  else fcmulFinite free np pq nr rs

/-- One complex element of FCMUL.W: the real part of the product is its lower word (R32, R154). -/
def complexMul (rm : BitVec 2) (a b : BitVec 64) : BitVec 64 :=
  let areal := operandSaturate (elem 32 a 0)
  let aimag := operandSaturate (elem 32 a 1)
  let breal := operandSaturate (elem 32 b 0)
  let bimag := operandSaturate (elem 32 b 1)
  operandUpdate (fcmulArith rm areal bimag aimag breal false) ++ operandUpdate (fcmulArith rm areal breal aimag bimag true)

/-- The two complex elements of FCMUL.W (R154). -/
def complexMulVec (rm : BitVec 2) (s t : Vec) : Vec :=
  lanes 128 64 (fun k => complexMul rm (elem 64 s k) (elem 64 t k)) 2

/-! ## The XHS format (R210 to R218) -/

/-- The `bias` field of a control value, bits 10:4 (R210). -/
def ctrlBias (c : BitVec 16) : Nat := (c.extractLsb' 4 7).toNat

/-- The `ebits` field of a control value, bits 3:0 (R210). -/
def ctrlEbits (c : BitVec 16) : Nat := (c.extractLsb' 0 4).toNat

/-- `valid(ctrl)` (R211). -/
def ctrlValid (c : BitVec 16) : Bool :=
  decide (2 ≤ ctrlEbits c ∧ ctrlEbits c ≤ 7 ∧ ctrlBias c ≤ 2 ^ ctrlEbits c - 1)
    || decide (ctrlEbits c = 8 ∧ ctrlBias c = 0x7F)

/-- The sign S of an XHS number, bit 15 (R212). -/
def xhsSign (a : BitVec 16) : Bool := a.getLsbD 15

/-- The biased exponent E, bits `14 : 15-ebits` (R212). -/
def xhsExp (a : BitVec 16) (ebits : Nat) : Nat := a.toNat / 2 ^ (15 - ebits) % 2 ^ ebits

/-- The fraction F, bits `14-ebits : 0` (R212). -/
def xhsFrac (a : BitVec 16) (ebits : Nat) : Nat := a.toNat % 2 ^ (15 - ebits)

/-- `xhs_zero(S)`, by `XHS_ZERO_SIGN` (R217). -/
def xhsZero (zero : XhsZeroSign) (sign : Bool) : Word :=
  match zero with
  | .copy => fpZero sign
  | .positive => fpZero false

/-- `up_convert_xhs(a, ebits, bias)` for a valid control value (R216). -/
def upConvertXhs (zero : XhsZeroSign) (a : BitVec 16) (ebits bias : Nat) : Word :=
  let e : Int := (xhsExp a ebits : Int) - (bias : Int)
  if xhsExp a ebits = 0 ∧ xhsFrac a ebits = 0 then xhsZero zero (xhsSign a)
  else if -126 ≤ e ∧ e ≤ 127 then
    fpPack (xhsSign a) (BitVec.ofInt 8 (e + 127)) (BitVec.ofNat 23 (xhsFrac a ebits * 2 ^ (23 - (15 - ebits))))
  else Config.xhsOutOfRange (xhsSign a) e (xhsFrac a ebits) ebits

/-- The four control values of the half are valid (R211). -/
def ctrlsValid (h : Half) (t : Vec) : Bool := (List.range 4).all fun i => ctrlValid (halfElem h 16 t i)

/-- The four conversions of FEXUPLC.W or FEXUPRC.W with valid control values (R219, R220). -/
def upConvertVec (zero : XhsZeroSign) (h : Half) (s t : Vec) : Vec :=
  lanes 128 32
    (fun i => upConvertXhs zero (halfElem h 16 s i) (ctrlEbits (halfElem h 16 t i)) (ctrlBias (halfElem h 16 t i))) 4

/-! ## The sparse offsets (R246, R247) -/

/-- `field + 1` of a field of `width` bits: the two readings of `SPARSE_INC_WRAPS` differ only for the all-ones field
(R247). -/
def incField (wraps : Bool) (width field : Nat) : Nat :=
  if field + 1 < 2 ^ width then field + 1 else if wraps then 0 else field + 1

/-- The offset of LDINSS.W: 4 * (bits `8n+7 : 8n+1` of the index register + 1) (R246). -/
def offsetSparse (wraps : Bool) (index : Addr) (n : Nat) : Addr :=
  BitVec.ofNat 64 (4 * incField wraps 7 (index.extractLsb' (8 * n + 1) 7).toNat)

/-- The offset of LDINSSU.W: 4 * (byte `n` of the index register + 1) (R246). -/
def offsetSparseByte (wraps : Bool) (index : Addr) (n : Nat) : Addr :=
  BitVec.ofNat 64 (4 * incField wraps 8 (index.extractLsb' (8 * n) 8).toNat)

/-- The offset of LDINSSU2.W: 4 * bits `4n+3 : 4n+1` of the index register (R246). -/
def offsetSparseNibble (index : Addr) (n : Nat) : Addr :=
  BitVec.ofNat 64 (4 * (index.extractLsb' (4 * n + 1) 3).toNat)

end Sys2Proof.Machine
end

