-- ==== Sys2Proof/Machine/Flags.lean ====
section
/-! DEFINITION. The only flag-like state: the fields of MSACSR (R38 to R46, R55). No MXA instruction writes a flag by a
rule; FCMUL.W leaves Cause and Flags unspecified (R47, R56, R157). -/

namespace Sys2Proof.Machine

/-- MSACSR.FS, bit 24 (R39). -/
def msacsrFS (c : Word) : Bool := c.getLsbD 24

/-- MSACSR.Impl, bits 22:21 (R40). -/
def msacsrImpl (c : Word) : BitVec 2 := c.extractLsb' 21 2

/-- MSACSR.NX, bit 18 (R41). -/
def msacsrNX (c : Word) : Bool := c.getLsbD 18

/-- MSACSR.Cause, bits 17:12 (R42). -/
def msacsrCause (c : Word) : BitVec 6 := c.extractLsb' 12 6

/-- MSACSR.Enables, bits 11:7 (R43). -/
def msacsrEnables (c : Word) : BitVec 5 := c.extractLsb' 7 5

/-- MSACSR.Flags, bits 6:2 (R44). -/
def msacsrFlags (c : Word) : BitVec 5 := c.extractLsb' 2 5

/-- MSACSR.RM, bits 1:0 (R45). -/
def msacsrRM (c : Word) : BitVec 2 := c.extractLsb' 0 2

/-- The reserved bits of MSACSR, 31:25, 23 and 20:19 (R46). -/
def msacsrReserved : Word := 0xFE980000#32

/-- MSACSR with new Cause and Flags fields and every other bit kept (R157). -/
def msacsrWithCauseFlags (c : Word) (cause : BitVec 6) (flags : BitVec 5) : Word :=
  (c &&& 0xFFFC0F83#32) ||| (cause.setWidth 32 <<< 12) ||| (flags.setWidth 32 <<< 2)

/-- FCMUL.W's effect on MSACSR: Cause and Flags become values that nothing constrains, one draw (R157). -/
def drawFpStatus (s : State) : State :=
  { s with
    msacsr := msacsrWithCauseFlags s.msacsr (Config.freeFpCause s.draws) (Config.freeFpFlags s.draws)
    draws := s.draws + 1 }

end Sys2Proof.Machine
end

