-- ==== Sys2Proof/Machine/Ops.lean ====
section
/-! DEFINITION. The named operations over registers, control bits and memory; the enable checks; taking an exception;
loads and stores. The MXA has no return from exception (R362), so none stands beside taking one. -/

namespace Sys2Proof.Machine

/-! ## Registers -/

/-- `WR[r]` (R13). -/
def readWr (s : State) (r : VReg) : Vec := s.wr[r.toNat]

/-- `WR[r] <- v` (R13). -/
def writeWr (s : State) (r : VReg) (v : Vec) : State := { s with wr := s.wr.set r.toNat v }

/-- A value modulo `2^GPRLEN` (R10, R70). -/
def wrapAddr (s : State) (v : Addr) : Addr := wrap s.params.gprLen v

/-- `GPR[r]`, a `GPRLEN`-bit string; `GPR[0]` reads as zero (R34, R35). -/
def readGpr (s : State) (r : GReg) : Addr := if r = 0#5 then 0#64 else wrapAddr s s.gpr[r.toNat]

/-- `GPR[r] <- v`, the low `GPRLEN` bits of `v`; a write to `GPR[0]` is discarded (R34, R35). -/
def writeGpr (s : State) (r : GReg) (v : Addr) : State :=
  { s with gpr := if r = 0#5 then s.gpr else s.gpr.set r.toNat (wrapAddr s v) }

/-- MSAIR, the read-only control register 0: bits 31:17 read as zero (R37). -/
def msair (s : State) : Word :=
  0#15 ++ BitVec.ofBool s.params.msairWrp ++ s.params.msairProcId ++ s.params.msairVersion

/-- Config3.MSAP, bit 28 (R49). -/
def msap (s : State) : Bool := s.config3.getLsbD 28

/-- Config5.MSAEn, bit 27 (R50). -/
def msaEn (s : State) : Bool := s.config5.getLsbD 27

/-- Status.CU1, bit 29 (R51). -/
def statusCU1 (s : State) : Bool := s.status.getLsbD 29

/-- Status.FR, bit 26 (R51). -/
def statusFR (s : State) : Bool := s.status.getLsbD 26

/-- PRESUMED (log 3): Status.CU2 is bit 30 (R367 gives no place). -/
def statusCU2 (s : State) : Bool := s.status.getLsbD 30

/-- PRESUMED (log 3): Status.EXL is bit 1 (R359 gives no place). -/
def statusEXL (s : State) : Bool := s.status.getLsbD 1

/-- Cause.ExcCode, bits 6:2 (R52). -/
def causeExcCode (s : State) : BitVec 5 := s.cause.extractLsb' 2 5

/-- PRESUMED (log 3): Cause.BD is bit 31 (R359 gives no place). -/
def causeBD (s : State) : Bool := s.cause.getLsbD 31

/-! ## Taking an exception (R359) -/

/-- The exception codes of Table 2.3 (R350). -/
def excCode : Exc → BitVec 5
  | .addressErrorLoad _ => 0x04#5
  | .addressErrorStore _ => 0x05#5
  | .reservedInstruction => 0x0a#5
  | .mxaDisabled => 0x15#5

/-- The address an exception records, "if any" (R360, R409 b). -/
def excVAddr : Exc → Option Addr
  | .addressErrorLoad v => some v
  | .addressErrorStore v => some v
  | .reservedInstruction => none
  | .mxaDisabled => none

/-- BadVAddr receives the address of an Address Error and no other exception writes it (R359, R360). -/
def excBadVAddr (s : State) (e : Exc) : Addr := (excVAddr e).getD s.badVAddr

/-- Cause with BD clear, ExcCode the given code, and every other bit kept (R359). -/
def causeWith (c : Word) (code : BitVec 5) : Word := (c &&& 0x7FFFFF83#32) ||| (code.setWidth 32 <<< 2)

/-- Trap entry: EPC, Cause, BadVAddr, Status.EXL and the pc, and no other register (R358, R359). The run ends here with
the outcome `Trap(code, EPC, BadVAddr if any)`, which `fetch` answers (R359, R409 b; log 23). -/
def enterException (s : State) (e : Exc) : State :=
  { s with
    epc := s.pc
    cause := causeWith s.cause (excCode e)
    badVAddr := excBadVAddr s e
    status := s.status ||| 0x00000002#32
    pc := s.params.genExcVector
    trap := some ⟨excCode e, s.pc, excVAddr e⟩ }

/-- `raise E`: the entry of R359, which supposes Status.EXL = 0; with EXL = 1 what the hardware does "must not be
assumed" and the model refuses (R363, U23; log 24). -/
def raiseExc (s : State) (e : Exc) : Result :=
  if statusEXL s then .refused .trapWhileExl else .next (enterException s e)

/-! ## The enable checks and the end of an instruction (R356, R18) -/

/-- `ri_unit` (R351). -/
def riUnit (s : State) : Bool := !msap s || (statusCU1 s && !statusFR s)

/-- The enable-check prologue (R356), then the instruction's own pseudocode. `valid` is false for a reserved encoding,
which an index out of its range also is (R352). Status.CU2 is looked at first because its priority "must not" be
invented (R367; log 25); register partitioning is refused where it would decide (R353; log 26). -/
def mxa (valid : Bool) (s : State) (body : Result) : Result :=
  if s.params.requireCU2 && !statusCU2 s then .refused .cu2Clear
  else if riUnit s then raiseExc s .reservedInstruction
  else if !valid then raiseExc s .reservedInstruction
  else if !msaEn s then raiseExc s .mxaDisabled
  else if s.params.msairWrp then .refused .partitioning
  else body

/-- `pc + 4` modulo `2^GPRLEN` (R36). -/
def nextPc (s : State) : Addr := wrapAddr s (s.pc + 4#64)

/-- `pc <- pc + 4` of an instruction that raised no exception (R18, R36). -/
def complete (s : State) : Result := .next { s with pc := nextPc s }

/-- A reserved word of the MXA's rows: Reserved Instruction (R124, R352, R356). -/
def execReserved (s : State) : Result := mxa false s (raiseExc s .reservedInstruction)

/-! ## Memory (R70 to R87) -/

/-- The byte at an address, if it holds one. -/
def memGet : Memory → Nat → Option Byte
  | [], _ => none
  | c :: m, a => if a = c.1 then some c.2 else memGet m a

/-- The memory with one byte stored, still in rising order. -/
def memPut : Memory → Nat → Byte → Memory
  | [], a, b => [(a, b)]
  | c :: m, a, b =>
    if a < c.1 then (a, b) :: c :: m
    else if a = c.1 then (a, b) :: m
    else c :: memPut m a b

/-- The canonical form of memory: addresses strictly rising and inside the address space. No entry can equal what an
unlisted address reads as, since that is no value at all (log 18). -/
abbrev Memory.wf (m : Memory) : Prop := m.Pairwise (fun x y => x.1 < y.1) ∧ ∀ c ∈ m, c.1 < 2 ^ 64

/-- The `n` addresses from `p` on. Those of an access stay inside the address space, because `p` is a multiple of `n`
(R73, R74, R75). -/
def span (p : Addr) : Nat → List Addr
  | 0 => []
  | n + 1 => p :: span (p + 1#64) n

/-- The bytes at the `n` addresses from `p` on, if each holds one. -/
def memBytes (m : Memory) (p : Addr) (n : Nat) : Option (List Byte) := (span p n).mapM fun a => memGet m a.toNat

/-- `MemRead(addr, n)` (R73). -/
def memRead (m : Memory) (e : Endian) (p : Addr) (n : Nat) : Option (BitVec (8 * n)) :=
  (memBytes m p n).map fun bs => BitVec.ofNat (8 * n) (natOfBytes e bs)

/-- Bytes stored at consecutive addresses from `p` on. -/
def memPutBytes (m : Memory) (p : Addr) : List Byte → Memory
  | [] => m
  | b :: bs => memPutBytes (memPut m p.toNat b) (p + 1#64) bs

/-- `MemWrite(addr, n, v)` (R74). -/
def memWrite (m : Memory) (e : Endian) (p : Addr) (n : Nat) (v : BitVec (8 * n)) : Memory :=
  memPutBytes m p (bytesOfNat e n v.toNat)

/-- The row of the translation table holds an access of the given kind to `v` (R80). -/
def rowHolds (acc : Access) (v : Addr) (r : TranslationRow) : Bool :=
  r.access == acc && decide (r.first.toNat ≤ v.toNat) && decide (v.toNat < r.first.toNat + r.size)

/-- `translate(vAddr, LOAD or STORE)`: a physical address or a fault; the identity outside the table (R80). -/
def translate (s : State) (acc : Access) (v : Addr) : Option Addr :=
  match s.params.translation.find? (rowHolds acc v) with
  | none => some v
  | some r => r.target.map fun t => wrapAddr s (t + (v - r.first))

/-- The address lies in a region of the given kind. -/
def inRegion (s : State) (k : RegionKind) (a : Addr) : Bool :=
  s.launchMemory.any fun r => r.kind == k && decide (r.base ≤ a.toNat) && decide (a.toNat < r.base + r.size)

/-- The address holds program text (R85). -/
def inText (s : State) (a : Addr) : Bool :=
  decide (s.text.first.toNat ≤ a.toNat) && decide (a.toNat < s.text.first.toNat + 4 * s.text.words)

/-- What the launch allows of an access of `n` bytes at `p`: no device region (R79), the launch memory (R81), and for a
store no program text (R85). DESIGN CHOICE (log 20): the spec does not say which stop applies where two do; a device
region is looked at first, then the launch memory, and the text last. -/
def checkAccess (s : State) (acc : Access) (p : Addr) (n : Nat) : Host.Outcome Unit Fault Refusal :=
  if (span p n).any (inRegion s .device) then .refused .deviceRegion
  else if !(span p n).all (inRegion s .memory) then .fault .outsideLaunchMemory
  else if acc == .store && (span p n).any (inText s) then .refused .storeIntoText
  else .next ()

/-- Natural alignment for an access of `n` bytes: `vAddr[1:0] = 00` or `vAddr[2:0] = 000` (R75, R242). -/
def aligned (v : Addr) (n : Nat) : Bool := v.toNat % n == 0

/-- The effective address of LDINS, LDINSU and STEXT: `GPR[base] + GPR[index]` (R241). -/
def addrIndexed (s : State) (base index : GReg) : Addr := wrapAddr s (readGpr s base + readGpr s index)

/-- The effective address of LDINSS.W (R246, R252). -/
def addrSparse (s : State) (base index : GReg) (n : Nat) : Addr :=
  wrapAddr s (readGpr s base + offsetSparse s.params.sparseIncWraps (readGpr s index) n)

/-- The effective address of LDINSSU.W (R246, R253). -/
def addrSparseByte (s : State) (base index : GReg) (n : Nat) : Addr :=
  wrapAddr s (readGpr s base + offsetSparseByte s.params.sparseIncWraps (readGpr s index) n)

/-- The effective address of LDINSSU2.W (R246, R254). -/
def addrSparseNibble (s : State) (base index : GReg) (n : Nat) : Addr :=
  wrapAddr s (readGpr s base + offsetSparseNibble (readGpr s index) n)

/-- The effective address of STEXTU: `GPR[base]` plus the size of the access (R241). -/
def addrNext (s : State) (base : GReg) (size : Nat) : Addr := wrapAddr s (readGpr s base + BitVec.ofNat 64 size)

/-- Element `n` of width `w` of `WR[wd]` replaced, the other bits kept (R244). -/
def writeElem (s : State) (w : Nat) (wd : VReg) (n : Nat) (x : BitVec w) : State :=
  writeWr s wd (setElem w (readWr s wd) n x)

/-- Steps 4 to 8 of a load (R240): alignment, translation, which may fault, the access at the virtual address (R16, R54;
log 22), then the instruction's writes and `pc + 4`. -/
def load (s : State) (v : Addr) (n : Nat) (write : BitVec (8 * n) → State) : Result :=
  if !aligned v n then raiseExc s (.addressErrorLoad v)
  else
    match translate s .load v with
    | none => .fault .translation
    | some _ =>
      match checkAccess s .load v n with
      | .refused r => .refused r
      | .fault f => .fault f
      | .next _ =>
        match memRead s.mem s.params.endian v n with
        | none => .fault .unwrittenByte
        | some x => complete (write x)

/-- Steps 4 to 8 of a store (R240): alignment, translation, which may fault, the access at the virtual address (R16,
R54; log 22), then the base update and `pc + 4`. -/
def store (s : State) (v : Addr) (n : Nat) (x : BitVec (8 * n)) (update : State → State) : Result :=
  if !aligned v n then raiseExc s (.addressErrorStore v)
  else
    match translate s .store v with
    | none => .fault .translation
    | some _ =>
      match checkAccess s .store v n with
      | .refused r => .refused r
      | .fault f => .fault f
      | .next _ => complete (update { s with mem := memWrite s.mem s.params.endian v n x })

/-! ## Fetch (R54, R77, R85, R409) -/

/-- The address just past the last word of the text (R409). -/
def textEnd (s : State) : Addr := wrapAddr s (s.text.first + BitVec.ofNat 64 (4 * s.text.words))

/-- The four bytes of the instruction at the pc, or why the run has ended there (R77, R409); after an exception the run
has ended and nothing is fetched from the vector (R359). DESIGN CHOICE (log 37): a fetch is held to the text alone, not
to the launch memory, the device regions or `translate`, of which the spec speaks for loads and stores only (R79 to
R81). -/
def fetch (s : State) : Host.Outcome (List Byte) Fault Refusal :=
  match s.trap with
  | some trap => .fault (.runTrap trap)
  | none =>
    if s.inDelaySlot then .refused .delaySlot
    else if !aligned s.pc 4 then .refused .misalignedPc
    else if inText s s.pc then
      match memBytes s.mem s.pc 4 with
      | none => .fault .unwrittenByte
      | some bs => .next bs
    else if s.pc = textEnd s then .fault .runDone
    else .refused .outsideText

/-- Run what the fetched bytes decode to: an instruction by `run`, a reserved word as Reserved Instruction, any other
word refused (R126, R409). -/
def stepWith (run : Instr → State → Result) (s : State) : Result :=
  match fetch s with
  | .refused r => .refused r
  | .fault f => .fault f
  | .next bs =>
    match (decodeBytes s.params.endian bs).1 with
    | .instr i => run i s
    | .reserved => execReserved s
    | .outside r => .refused (.outsideMxa r)

/-- The state with the word that the low `nbits` bits of `w` make stored at the pc, as a text of one word that
no exception has ended. -/
def loadWordAtPc (s : State) (nbits w : Nat) : State :=
  { s with
    mem := memPutBytes s.mem s.pc (bytesOfNat s.params.endian 4 (w % 2 ^ nbits))
    text := ⟨s.pc, 1⟩
    inDelaySlot := false
    trap := none }

end Sys2Proof.Machine
end

