-- ==== Sys2Proof/Machine/Bitwise.lean ====
section
/-! DEFINITION. Bitwise instructions (R170 to R191). -/

namespace Sys2Proof.Machine

/-- BMR.V: bits of ws where wr is 1, of wt where it is 0 (R171). -/
def execBmrV (wd ws wt wr : VReg) (s : State) : Result :=
  mxa true s (complete (writeWr s wd ((readWr s ws &&& readWr s wr) ||| (readWr s wt &&& ~~~readWr s wr))))

/-- PCNT.V: the number of ones of the whole register, in byte 0 (R172). -/
def execPcntV (wd ws : VReg) (s : State) : Result :=
  mxa true s (complete (writeWr s wd ((BitVec.ofNat 8 (countOnes (readWr s ws) 128)).setWidth 128)))

/-- BEXT.B: the top bit of each element of 8 bits (R174). -/
def execBextB (wd ws : VReg) (s : State) : Result :=
  mxa true s (complete (writeWr s wd (bitExtract 8 (readWr s ws))))

/-- BEXT.H: the top bit of each element of 16 bits (R175). -/
def execBextH (wd ws : VReg) (s : State) : Result :=
  mxa true s (complete (writeWr s wd (bitExtract 16 (readWr s ws))))

/-- BEXT.W: the top bit of each element of 32 bits (R176). -/
def execBextW (wd ws : VReg) (s : State) : Result :=
  mxa true s (complete (writeWr s wd (bitExtract 32 (readWr s ws))))

/-- BEXP.B: each low bit expanded to 8 bits (R178). -/
def execBexpB (wd ws : VReg) (s : State) : Result :=
  mxa true s (complete (writeWr s wd (bitExpand 8 (readWr s ws))))

/-- BEXP.H: each low bit expanded to 16 bits (R179). -/
def execBexpH (wd ws : VReg) (s : State) : Result :=
  mxa true s (complete (writeWr s wd (bitExpand 16 (readWr s ws))))

/-- BEXP.W: each low bit expanded to 32 bits (R180). -/
def execBexpW (wd ws : VReg) (s : State) : Result :=
  mxa true s (complete (writeWr s wd (bitExpand 32 (readWr s ws))))

/-- BEXP.2B: each low bit expanded to 2 bits (R181). -/
def execBexp2B (wd ws : VReg) (s : State) : Result :=
  mxa true s (complete (writeWr s wd (bitExpand 2 (readWr s ws))))

/-- BEXP.4B: each low bit expanded to 4 bits (R182). -/
def execBexp4B (wd ws : VReg) (s : State) : Result :=
  mxa true s (complete (writeWr s wd (bitExpand 4 (readWr s ws))))

/-- BMU.V: bit mask update of wd; the source index is `BMU_SRC_INDEX` (R184). -/
def execBmuV (wd ws wt : VReg) (s : State) : Result :=
  mxa true s (complete (writeWr s wd (bitMaskUpdate s.params.bmuSrcIndex (readWr s ws) (readWr s wd) (readWr s wt))))

/-- SLL.V: left shift of the whole register by wt[6:0] (R185). -/
def execSllV (wd ws wt : VReg) (s : State) : Result :=
  mxa true s (complete (writeWr s wd (readWr s ws <<< shiftAmount (readWr s wt))))

/-- SLLI.V: left shift of the whole register by m (R186). -/
def execSlliV (wd ws : VReg) (m : Nat) (s : State) : Result :=
  mxa (decide (m < 32)) s (complete (writeWr s wd (readWr s ws <<< m)))

/-- SRL.V: logical right shift of the whole register by wt[6:0] (R187). -/
def execSrlV (wd ws wt : VReg) (s : State) : Result :=
  mxa true s (complete (writeWr s wd (readWr s ws >>> shiftAmount (readWr s wt))))

/-- SRLI.V: logical right shift of the whole register by m (R188). -/
def execSrliV (wd ws : VReg) (m : Nat) (s : State) : Result :=
  mxa (decide (m < 32)) s (complete (writeWr s wd (readWr s ws >>> m)))

/-- MOVBT.B: the bytes of ws under the mask wt, packed low (R189). -/
def execMovbtB (wd ws wt : VReg) (s : State) : Result :=
  mxa true s (complete (writeWr s wd (moveExtract (readWr s ws) (readWr s wt))))

/-- MOVBP.B: the low bytes of ws dealt out under the mask wt (R190). -/
def execMovbpB (wd ws wt : VReg) (s : State) : Result :=
  mxa true s (complete (writeWr s wd (moveExpand (readWr s ws) (readWr s wt))))

end Sys2Proof.Machine
end

