-- ==== Sys2Proof/Machine/FpArith.lean ====
section
/-! DEFINITION. Floating-point arithmetic (R150 to R158). -/

namespace Sys2Proof.Machine

/-- FCMUL.W: two complex products; MSACSR.Cause and Flags become unspecified, nothing traps (R154). -/
def execFcmulW (wd ws wt : VReg) (s : State) : Result :=
  mxa true s (complete (drawFpStatus (writeWr s wd (complexMulVec (msacsrRM s.msacsr) (readWr s ws) (readWr s wt)))))

end Sys2Proof.Machine
end

