-- ==== Sys2Proof/Machine/FpConvert.lean ====
section
/-! DEFINITION. Floating-point conversion from XHS (R210 to R223). -/

namespace Sys2Proof.Machine

/-- The new `WR[wd]` of an up-conversion: with an invalid control value among the four, a value that nothing
constrains, one draw (R211, log 13); else the four conversions (R219, R220). -/
def upConvert (h : Half) (s : State) (wd ws wt : VReg) : State :=
  if ctrlsValid h (readWr s wt) then writeWr s wd (upConvertVec s.params.xhsZeroSign h (readWr s ws) (readWr s wt))
  else { writeWr s wd (Config.freeVector s.draws) with draws := s.draws + 1 }

/-- FEXUPLC.W: the four XHS numbers of the left half of ws under the control values of wt (R219). -/
def execFexuplcW (wd ws wt : VReg) (s : State) : Result :=
  mxa true s (complete (upConvert .left s wd ws wt))

/-- FEXUPRC.W: the four XHS numbers of the right half of ws under the control values of wt (R220). -/
def execFexuprcW (wd ws wt : VReg) (s : State) : Result :=
  mxa true s (complete (upConvert .right s wd ws wt))

end Sys2Proof.Machine
end

