-- ==== Sys2Proof/Machine/IntArith.lean ====
section
/-! DEFINITION. Integer arithmetic (R290 to R339): the widening ADD, SUB, MUL and ACC and the narrowing SAT instructions. -/

namespace Sys2Proof.Machine

/-- ADDSL.H: widening add of the left halves, signed (R295). -/
def execAddslH (wd ws wt : VReg) (s : State) : Result :=
  mxa true s (complete (writeWr s wd (widen .signed .left 8 (· + ·) (readWr s ws) (readWr s wt))))

/-- ADDSL.W: widening add of the left halves, signed (R296). -/
def execAddslW (wd ws wt : VReg) (s : State) : Result :=
  mxa true s (complete (writeWr s wd (widen .signed .left 16 (· + ·) (readWr s ws) (readWr s wt))))

/-- ADDSR.H: widening add of the right halves, signed (R297). -/
def execAddsrH (wd ws wt : VReg) (s : State) : Result :=
  mxa true s (complete (writeWr s wd (widen .signed .right 8 (· + ·) (readWr s ws) (readWr s wt))))

/-- ADDSR.W: widening add of the right halves, signed (R298). -/
def execAddsrW (wd ws wt : VReg) (s : State) : Result :=
  mxa true s (complete (writeWr s wd (widen .signed .right 16 (· + ·) (readWr s ws) (readWr s wt))))

/-- ADDUL.H: widening add of the left halves, unsigned (R299). -/
def execAddulH (wd ws wt : VReg) (s : State) : Result :=
  mxa true s (complete (writeWr s wd (widen .unsigned .left 8 (· + ·) (readWr s ws) (readWr s wt))))

/-- ADDUL.W: widening add of the left halves, unsigned (R300). -/
def execAddulW (wd ws wt : VReg) (s : State) : Result :=
  mxa true s (complete (writeWr s wd (widen .unsigned .left 16 (· + ·) (readWr s ws) (readWr s wt))))

/-- ADDUR.H: widening add of the right halves, unsigned (R301). -/
def execAddurH (wd ws wt : VReg) (s : State) : Result :=
  mxa true s (complete (writeWr s wd (widen .unsigned .right 8 (· + ·) (readWr s ws) (readWr s wt))))

/-- ADDUR.W: widening add of the right halves, unsigned (R302). -/
def execAddurW (wd ws wt : VReg) (s : State) : Result :=
  mxa true s (complete (writeWr s wd (widen .unsigned .right 16 (· + ·) (readWr s ws) (readWr s wt))))

/-- ACCSL.H: widening accumulate of the left half of ws, signed (R303). -/
def execAccslH (wd ws : VReg) (s : State) : Result :=
  mxa true s (complete (writeWr s wd (accumulate .signed .left 8 (readWr s ws) (readWr s wd))))

/-- ACCSL.W: widening accumulate of the left half of ws, signed (R304). -/
def execAccslW (wd ws : VReg) (s : State) : Result :=
  mxa true s (complete (writeWr s wd (accumulate .signed .left 16 (readWr s ws) (readWr s wd))))

/-- ACCSR.H: widening accumulate of the right half of ws, signed (R305). -/
def execAccsrH (wd ws : VReg) (s : State) : Result :=
  mxa true s (complete (writeWr s wd (accumulate .signed .right 8 (readWr s ws) (readWr s wd))))

/-- ACCSR.W: widening accumulate of the right half of ws, signed (R306). -/
def execAccsrW (wd ws : VReg) (s : State) : Result :=
  mxa true s (complete (writeWr s wd (accumulate .signed .right 16 (readWr s ws) (readWr s wd))))

/-- ACCUL.H: widening accumulate of the left half of ws, unsigned (R307). -/
def execAcculH (wd ws : VReg) (s : State) : Result :=
  mxa true s (complete (writeWr s wd (accumulate .unsigned .left 8 (readWr s ws) (readWr s wd))))

/-- ACCUL.W: widening accumulate of the left half of ws, unsigned (R308). -/
def execAcculW (wd ws : VReg) (s : State) : Result :=
  mxa true s (complete (writeWr s wd (accumulate .unsigned .left 16 (readWr s ws) (readWr s wd))))

/-- ACCUR.H: widening accumulate of the right half of ws, unsigned (R309). -/
def execAccurH (wd ws : VReg) (s : State) : Result :=
  mxa true s (complete (writeWr s wd (accumulate .unsigned .right 8 (readWr s ws) (readWr s wd))))

/-- ACCUR.W: widening accumulate of the right half of ws, unsigned (R310). -/
def execAccurW (wd ws : VReg) (s : State) : Result :=
  mxa true s (complete (writeWr s wd (accumulate .unsigned .right 16 (readWr s ws) (readWr s wd))))

/-- SATSS.B: the elements of ws || wt narrowed to 8 bits (R315). -/
def execSatssB (wd ws wt : VReg) (s : State) : Result :=
  mxa true s (complete (writeWr s wd (narrow 8 (saturateSignedS 8) (readWr s ws) (readWr s wt))))

/-- SATSS.H: the elements of ws || wt narrowed to 16 bits (R316). -/
def execSatssH (wd ws wt : VReg) (s : State) : Result :=
  mxa true s (complete (writeWr s wd (narrow 16 (saturateSignedS 16) (readWr s ws) (readWr s wt))))

/-- SATUS.B: the elements of ws || wt narrowed to 8 bits (R317). -/
def execSatusB (wd ws wt : VReg) (s : State) : Result :=
  mxa true s (complete (writeWr s wd (narrow 8 (saturateUnsignedS 8) (readWr s ws) (readWr s wt))))

/-- SATUS.H: the elements of ws || wt narrowed to 16 bits (R318). -/
def execSatusH (wd ws wt : VReg) (s : State) : Result :=
  mxa true s (complete (writeWr s wd (narrow 16 (saturateUnsignedS 16) (readWr s ws) (readWr s wt))))

/-- SATUU.B: the elements of ws || wt narrowed to 8 bits (R319). -/
def execSatuuB (wd ws wt : VReg) (s : State) : Result :=
  mxa true s (complete (writeWr s wd (narrow 8 (saturateUnsignedU 8) (readWr s ws) (readWr s wt))))

/-- SATUU.H: the elements of ws || wt narrowed to 16 bits (R320). -/
def execSatuuH (wd ws wt : VReg) (s : State) : Result :=
  mxa true s (complete (writeWr s wd (narrow 16 (saturateUnsignedU 16) (readWr s ws) (readWr s wt))))

/-- SUBSL.H: widening subtract, ws minus wt of the left halves, signed (R321). -/
def execSubslH (wd ws wt : VReg) (s : State) : Result :=
  mxa true s (complete (writeWr s wd (widen .signed .left 8 (· - ·) (readWr s ws) (readWr s wt))))

/-- SUBSL.W: widening subtract, ws minus wt of the left halves, signed (R322). -/
def execSubslW (wd ws wt : VReg) (s : State) : Result :=
  mxa true s (complete (writeWr s wd (widen .signed .left 16 (· - ·) (readWr s ws) (readWr s wt))))

/-- SUBSR.H: widening subtract, ws minus wt of the right halves, signed (R323). -/
def execSubsrH (wd ws wt : VReg) (s : State) : Result :=
  mxa true s (complete (writeWr s wd (widen .signed .right 8 (· - ·) (readWr s ws) (readWr s wt))))

/-- SUBSR.W: widening subtract, ws minus wt of the right halves, signed (R324). -/
def execSubsrW (wd ws wt : VReg) (s : State) : Result :=
  mxa true s (complete (writeWr s wd (widen .signed .right 16 (· - ·) (readWr s ws) (readWr s wt))))

/-- SUBUL.H: widening subtract, ws minus wt of the left halves, unsigned (R325). -/
def execSubulH (wd ws wt : VReg) (s : State) : Result :=
  mxa true s (complete (writeWr s wd (widen .unsigned .left 8 (· - ·) (readWr s ws) (readWr s wt))))

/-- SUBUL.W: widening subtract, ws minus wt of the left halves, unsigned (R326). -/
def execSubulW (wd ws wt : VReg) (s : State) : Result :=
  mxa true s (complete (writeWr s wd (widen .unsigned .left 16 (· - ·) (readWr s ws) (readWr s wt))))

/-- SUBUR.H: widening subtract, ws minus wt of the right halves, unsigned (R327). -/
def execSuburH (wd ws wt : VReg) (s : State) : Result :=
  mxa true s (complete (writeWr s wd (widen .unsigned .right 8 (· - ·) (readWr s ws) (readWr s wt))))

/-- SUBUR.W: widening subtract, ws minus wt of the right halves, unsigned (R328). -/
def execSuburW (wd ws wt : VReg) (s : State) : Result :=
  mxa true s (complete (writeWr s wd (widen .unsigned .right 16 (· - ·) (readWr s ws) (readWr s wt))))

/-- MULSL.H: widening multiply of the left halves, signed (R329). -/
def execMulslH (wd ws wt : VReg) (s : State) : Result :=
  mxa true s (complete (writeWr s wd (widen .signed .left 8 (· * ·) (readWr s ws) (readWr s wt))))

/-- MULSL.W: widening multiply of the left halves, signed (R330). -/
def execMulslW (wd ws wt : VReg) (s : State) : Result :=
  mxa true s (complete (writeWr s wd (widen .signed .left 16 (· * ·) (readWr s ws) (readWr s wt))))

/-- MULSR.H: widening multiply of the right halves, signed (R331). -/
def execMulsrH (wd ws wt : VReg) (s : State) : Result :=
  mxa true s (complete (writeWr s wd (widen .signed .right 8 (· * ·) (readWr s ws) (readWr s wt))))

/-- MULSR.W: widening multiply of the right halves, signed (R332). -/
def execMulsrW (wd ws wt : VReg) (s : State) : Result :=
  mxa true s (complete (writeWr s wd (widen .signed .right 16 (· * ·) (readWr s ws) (readWr s wt))))

/-- MULUL.H: widening multiply of the left halves, unsigned (R333). -/
def execMululH (wd ws wt : VReg) (s : State) : Result :=
  mxa true s (complete (writeWr s wd (widen .unsigned .left 8 (· * ·) (readWr s ws) (readWr s wt))))

/-- MULUL.W: widening multiply of the left halves, unsigned (R334). -/
def execMululW (wd ws wt : VReg) (s : State) : Result :=
  mxa true s (complete (writeWr s wd (widen .unsigned .left 16 (· * ·) (readWr s ws) (readWr s wt))))

/-- MULUR.H: widening multiply of the right halves, unsigned (R335). -/
def execMulurH (wd ws wt : VReg) (s : State) : Result :=
  mxa true s (complete (writeWr s wd (widen .unsigned .right 8 (· * ·) (readWr s ws) (readWr s wt))))

/-- MULUR.W: widening multiply of the right halves, unsigned (R336). -/
def execMulurW (wd ws wt : VReg) (s : State) : Result :=
  mxa true s (complete (writeWr s wd (widen .unsigned .right 16 (· * ·) (readWr s ws) (readWr s wt))))

end Sys2Proof.Machine
end

