-- ==== Sys2Proof/Machine/LoadStore.lean ====
section
/-! DEFINITION. Loads and stores (R240 to R263). -/

namespace Sys2Proof.Machine

/-- LDINS.W: load a word into word n (R248). -/
def execLdinsW (wd : VReg) (n : Nat) (index base : GReg) (s : State) : Result :=
  mxa (decide (n < 4)) s (load s (addrIndexed s base index) 4 fun x => writeElem s 32 wd n x)

/-- LDINS.D: load a doubleword into doubleword n (R249). -/
def execLdinsD (wd : VReg) (n : Nat) (index base : GReg) (s : State) : Result :=
  mxa (decide (n < 2)) s (load s (addrIndexed s base index) 8 fun x => writeElem s 64 wd n x)

/-- LDINSU.W: load a word into word n and update the base (R250). -/
def execLdinsuW (wd : VReg) (n : Nat) (index base : GReg) (s : State) : Result :=
  mxa (decide (n < 4)) s (load s (addrIndexed s base index) 4 fun x => writeGpr (writeElem s 32 wd n x) base (addrIndexed s base index))

/-- LDINSU.D: load a doubleword into doubleword n and update the base (R251). -/
def execLdinsuD (wd : VReg) (n : Nat) (index base : GReg) (s : State) : Result :=
  mxa (decide (n < 2)) s (load s (addrIndexed s base index) 8 fun x => writeGpr (writeElem s 64 wd n x) base (addrIndexed s base index))

/-- LDINSS.W: load a word from a sparse offset into word n (R252). -/
def execLdinssW (wd : VReg) (n : Nat) (index base : GReg) (s : State) : Result :=
  mxa (decide (n < 4)) s (load s (addrSparse s base index n) 4 fun x => writeElem s 32 wd n x)

/-- LDINSSU.W: load a word from a sparse offset into word n and update the base (R253). -/
def execLdinssuW (wd : VReg) (n : Nat) (index base : GReg) (s : State) : Result :=
  mxa (decide (n < 4)) s (load s (addrSparseByte s base index n) 4 fun x => writeGpr (writeElem s 32 wd n x) base (addrSparseByte s base index n))

/-- LDINSSU2.W: load a word from a nibble offset into word n mod 4 and update the base (R254). -/
def execLdinssu2W (wd : VReg) (n : Nat) (index base : GReg) (s : State) : Result :=
  mxa (decide (n < 8)) s (load s (addrSparseNibble s base index n) 4 fun x => writeGpr (writeElem s 32 wd (n % 4) x) base (addrSparseNibble s base index n))

/-- STEXT.W: store element n of 32 bits (R255). -/
def execStextW (wd : VReg) (n : Nat) (index base : GReg) (s : State) : Result :=
  mxa (decide (n < 4)) s (store s (addrIndexed s base index) 4 (elem 32 (readWr s wd) n) id)

/-- STEXT.D: store element n of 64 bits (R256). -/
def execStextD (wd : VReg) (n : Nat) (index base : GReg) (s : State) : Result :=
  mxa (decide (n < 2)) s (store s (addrIndexed s base index) 8 (elem 64 (readWr s wd) n) id)

/-- STEXTU.W: store element n of 32 bits at the base plus 4 and update the base (R257). -/
def execStextuW (wd : VReg) (n : Nat) (base : GReg) (s : State) : Result :=
  mxa (decide (n < 4)) s (store s (addrNext s base 4) 4 (elem 32 (readWr s wd) n) fun t => writeGpr t base (addrNext s base 4))

/-- STEXTU.D: store element n of 64 bits at the base plus 8 and update the base (R258). -/
def execStextuD (wd : VReg) (n : Nat) (base : GReg) (s : State) : Result :=
  mxa (decide (n < 2)) s (store s (addrNext s base 8) 8 (elem 64 (readWr s wd) n) fun t => writeGpr t base (addrNext s base 8))

end Sys2Proof.Machine
end

