-- ==== Sys2Proof/Machine/Move.lean ====
section
/-! DEFINITION. Move (R280, R281). -/

namespace Sys2Proof.Machine

/-- MOVE.W: word n of ws into word m of wd (R280). -/
def execMoveW (wd : VReg) (m : Nat) (ws : VReg) (n : Nat) (s : State) : Result :=
  mxa (decide (m < 4) && decide (n < 4)) s (complete (writeWr s wd (setElem 32 (readWr s wd) m (elem 32 (readWr s ws) n))))

end Sys2Proof.Machine
end

