-- ==== Sys2Proof/Machine/Permute.lean ====
section
/-! DEFINITION. Element permute (R230 to R232). -/

namespace Sys2Proof.Machine

/-- VSHFR.B: bytes of ws || wt selected by the control bytes of wr (R231). -/
def execVshfrB (wd ws wt wr : VReg) (s : State) : Result :=
  mxa true s (complete (writeWr s wd (shuffleBytes (readWr s ws) (readWr s wt) (readWr s wr))))

/-- VSLDI.B: bytes n to n + 15 of wt || ws (R232). -/
def execVsldiB (wd ws wt : VReg) (n : Nat) (s : State) : Result :=
  mxa (decide (n < 16)) s (complete (writeWr s wd (slideBytes (readWr s ws) (readWr s wt) n)))

end Sys2Proof.Machine
end

