-- ==== Sys2Proof/Machine/Dispatch.lean ====
section
/-! DEFINITION. One arm per constructor of Instr: the meaning of each instruction, called by its full name. -/

namespace Sys2Proof.Machine

def exec (i : Instr) (s : State) : Host.Outcome State Fault Refusal :=
  match i with
  | .fexuplcW wd ws wt => Sys2Proof.Machine.execFexuplcW wd ws wt s
  | .fcmulW wd ws wt => Sys2Proof.Machine.execFcmulW wd ws wt s
  | .fexuprcW wd ws wt => Sys2Proof.Machine.execFexuprcW wd ws wt s
  | .addslH wd ws wt => Sys2Proof.Machine.execAddslH wd ws wt s
  | .addslW wd ws wt => Sys2Proof.Machine.execAddslW wd ws wt s
  | .addsrH wd ws wt => Sys2Proof.Machine.execAddsrH wd ws wt s
  | .addsrW wd ws wt => Sys2Proof.Machine.execAddsrW wd ws wt s
  | .addulH wd ws wt => Sys2Proof.Machine.execAddulH wd ws wt s
  | .addulW wd ws wt => Sys2Proof.Machine.execAddulW wd ws wt s
  | .addurH wd ws wt => Sys2Proof.Machine.execAddurH wd ws wt s
  | .addurW wd ws wt => Sys2Proof.Machine.execAddurW wd ws wt s
  | .subslH wd ws wt => Sys2Proof.Machine.execSubslH wd ws wt s
  | .subslW wd ws wt => Sys2Proof.Machine.execSubslW wd ws wt s
  | .subsrH wd ws wt => Sys2Proof.Machine.execSubsrH wd ws wt s
  | .subsrW wd ws wt => Sys2Proof.Machine.execSubsrW wd ws wt s
  | .subulH wd ws wt => Sys2Proof.Machine.execSubulH wd ws wt s
  | .subulW wd ws wt => Sys2Proof.Machine.execSubulW wd ws wt s
  | .suburH wd ws wt => Sys2Proof.Machine.execSuburH wd ws wt s
  | .suburW wd ws wt => Sys2Proof.Machine.execSuburW wd ws wt s
  | .mulslH wd ws wt => Sys2Proof.Machine.execMulslH wd ws wt s
  | .mulslW wd ws wt => Sys2Proof.Machine.execMulslW wd ws wt s
  | .mulsrH wd ws wt => Sys2Proof.Machine.execMulsrH wd ws wt s
  | .mulsrW wd ws wt => Sys2Proof.Machine.execMulsrW wd ws wt s
  | .mululH wd ws wt => Sys2Proof.Machine.execMululH wd ws wt s
  | .mululW wd ws wt => Sys2Proof.Machine.execMululW wd ws wt s
  | .mulurH wd ws wt => Sys2Proof.Machine.execMulurH wd ws wt s
  | .mulurW wd ws wt => Sys2Proof.Machine.execMulurW wd ws wt s
  | .sllV wd ws wt => Sys2Proof.Machine.execSllV wd ws wt s
  | .bmuV wd ws wt => Sys2Proof.Machine.execBmuV wd ws wt s
  | .srlV wd ws wt => Sys2Proof.Machine.execSrlV wd ws wt s
  | .satssB wd ws wt => Sys2Proof.Machine.execSatssB wd ws wt s
  | .satssH wd ws wt => Sys2Proof.Machine.execSatssH wd ws wt s
  | .satuuB wd ws wt => Sys2Proof.Machine.execSatuuB wd ws wt s
  | .satuuH wd ws wt => Sys2Proof.Machine.execSatuuH wd ws wt s
  | .satusB wd ws wt => Sys2Proof.Machine.execSatusB wd ws wt s
  | .satusH wd ws wt => Sys2Proof.Machine.execSatusH wd ws wt s
  | .movbtB wd ws wt => Sys2Proof.Machine.execMovbtB wd ws wt s
  | .movbpB wd ws wt => Sys2Proof.Machine.execMovbpB wd ws wt s
  | .moveW wd m ws n => Sys2Proof.Machine.execMoveW wd m ws n s
  | .stextuW wd n base => Sys2Proof.Machine.execStextuW wd n base s
  | .stextuD wd n base => Sys2Proof.Machine.execStextuD wd n base s
  | .ldinsW wd n index base => Sys2Proof.Machine.execLdinsW wd n index base s
  | .ldinsD wd n index base => Sys2Proof.Machine.execLdinsD wd n index base s
  | .ldinssW wd n index base => Sys2Proof.Machine.execLdinssW wd n index base s
  | .vsldiB wd ws wt n => Sys2Proof.Machine.execVsldiB wd ws wt n s
  | .stextW wd n index base => Sys2Proof.Machine.execStextW wd n index base s
  | .stextD wd n index base => Sys2Proof.Machine.execStextD wd n index base s
  | .ldinssuW wd n index base => Sys2Proof.Machine.execLdinssuW wd n index base s
  | .ldinssu2W wd n index base => Sys2Proof.Machine.execLdinssu2W wd n index base s
  | .ldinsuW wd n index base => Sys2Proof.Machine.execLdinsuW wd n index base s
  | .ldinsuD wd n index base => Sys2Proof.Machine.execLdinsuD wd n index base s
  | .pcntV wd ws => Sys2Proof.Machine.execPcntV wd ws s
  | .slliV wd ws m => Sys2Proof.Machine.execSlliV wd ws m s
  | .srliV wd ws m => Sys2Proof.Machine.execSrliV wd ws m s
  | .bextB wd ws => Sys2Proof.Machine.execBextB wd ws s
  | .bextH wd ws => Sys2Proof.Machine.execBextH wd ws s
  | .bextW wd ws => Sys2Proof.Machine.execBextW wd ws s
  | .bexpB wd ws => Sys2Proof.Machine.execBexpB wd ws s
  | .bexpH wd ws => Sys2Proof.Machine.execBexpH wd ws s
  | .bexpW wd ws => Sys2Proof.Machine.execBexpW wd ws s
  | .bexp2B wd ws => Sys2Proof.Machine.execBexp2B wd ws s
  | .bexp4B wd ws => Sys2Proof.Machine.execBexp4B wd ws s
  | .acculH wd ws => Sys2Proof.Machine.execAcculH wd ws s
  | .acculW wd ws => Sys2Proof.Machine.execAcculW wd ws s
  | .accurH wd ws => Sys2Proof.Machine.execAccurH wd ws s
  | .accurW wd ws => Sys2Proof.Machine.execAccurW wd ws s
  | .accslH wd ws => Sys2Proof.Machine.execAccslH wd ws s
  | .accslW wd ws => Sys2Proof.Machine.execAccslW wd ws s
  | .accsrH wd ws => Sys2Proof.Machine.execAccsrH wd ws s
  | .accsrW wd ws => Sys2Proof.Machine.execAccsrW wd ws s
  | .vshfrB wd ws wt wr => Sys2Proof.Machine.execVshfrB wd ws wt wr s
  | .bmrV wd ws wt wr => Sys2Proof.Machine.execBmrV wd ws wt wr s

end Sys2Proof.Machine
end

