-- ==== Sys2Proof/Machine/Step.lean ====
section
/-! DEFINITION. One step of the machine: fetch, decode, run (R126, R409). -/

namespace Sys2Proof.Machine

/-- One step. -/
def step (s : State) : Host.Outcome State Fault Refusal := stepWith exec s

/-- The state in which the low `nbits` bits of `w` are the instruction that the next step fetches. -/
def State.withFetchWord (s : State) (nbits w : Nat) : State := loadWordAtPc s nbits w

end Sys2Proof.Machine
end

