-- ==== Sys2Proof/Safety.lean ====
section
/-! DEFINITION. The terms that claims use: when an MXA instruction executes, what it accesses and writes, what it leaves
unchanged, the invariant of every step, and the numbers that bit patterns stand for. -/

namespace Sys2Proof.Machine

/-! ## When an instruction executes -/

/-- `REQUIRE_CU2` does not stand in the way (R367). -/
def cu2Allows (s : State) : Bool := !s.params.requireCU2 || statusCU2 s

/-- The conditions of R402 under which an MXA instruction "does not trap at the enable checks", with those of
`REQUIRE_CU2` (R367) and `MSAIR_WRP` = 0 (R353). -/
def executes (s : State) : Bool := cu2Allows s && !riUnit s && msaEn s && !s.params.msairWrp

/-! ## What an instruction accesses and writes -/

/-- The one memory access of a load or store: its kind, its effective address and its size (R71). -/
structure MemAccess where
  kind : Access
  vaddr : Addr
  size : Nat
  deriving DecidableEq, Repr

/-- The memory access of an instruction; "no other MXA instruction touches memory" (R71, R241, R246). -/
def accessOf (s : State) : Instr → Option MemAccess
  | .fexuplcW _ _ _ => none
  | .fcmulW _ _ _ => none
  | .fexuprcW _ _ _ => none
  | .addslH _ _ _ => none
  | .addslW _ _ _ => none
  | .addsrH _ _ _ => none
  | .addsrW _ _ _ => none
  | .addulH _ _ _ => none
  | .addulW _ _ _ => none
  | .addurH _ _ _ => none
  | .addurW _ _ _ => none
  | .subslH _ _ _ => none
  | .subslW _ _ _ => none
  | .subsrH _ _ _ => none
  | .subsrW _ _ _ => none
  | .subulH _ _ _ => none
  | .subulW _ _ _ => none
  | .suburH _ _ _ => none
  | .suburW _ _ _ => none
  | .mulslH _ _ _ => none
  | .mulslW _ _ _ => none
  | .mulsrH _ _ _ => none
  | .mulsrW _ _ _ => none
  | .mululH _ _ _ => none
  | .mululW _ _ _ => none
  | .mulurH _ _ _ => none
  | .mulurW _ _ _ => none
  | .sllV _ _ _ => none
  | .bmuV _ _ _ => none
  | .srlV _ _ _ => none
  | .satssB _ _ _ => none
  | .satssH _ _ _ => none
  | .satuuB _ _ _ => none
  | .satuuH _ _ _ => none
  | .satusB _ _ _ => none
  | .satusH _ _ _ => none
  | .movbtB _ _ _ => none
  | .movbpB _ _ _ => none
  | .moveW _ _ _ _ => none
  | .stextuW _ _ base => some ⟨.store, addrNext s base 4, 4⟩
  | .stextuD _ _ base => some ⟨.store, addrNext s base 8, 8⟩
  | .ldinsW _ _ index base => some ⟨.load, addrIndexed s base index, 4⟩
  | .ldinsD _ _ index base => some ⟨.load, addrIndexed s base index, 8⟩
  | .ldinssW _ n index base => some ⟨.load, addrSparse s base index n, 4⟩
  | .vsldiB _ _ _ _ => none
  | .stextW _ _ index base => some ⟨.store, addrIndexed s base index, 4⟩
  | .stextD _ _ index base => some ⟨.store, addrIndexed s base index, 8⟩
  | .ldinssuW _ n index base => some ⟨.load, addrSparseByte s base index n, 4⟩
  | .ldinssu2W _ n index base => some ⟨.load, addrSparseNibble s base index n, 4⟩
  | .ldinsuW _ _ index base => some ⟨.load, addrIndexed s base index, 4⟩
  | .ldinsuD _ _ index base => some ⟨.load, addrIndexed s base index, 8⟩
  | .pcntV _ _ => none
  | .slliV _ _ _ => none
  | .srliV _ _ _ => none
  | .bextB _ _ => none
  | .bextH _ _ => none
  | .bextW _ _ => none
  | .bexpB _ _ => none
  | .bexpH _ _ => none
  | .bexpW _ _ => none
  | .bexp2B _ _ => none
  | .bexp4B _ _ => none
  | .acculH _ _ => none
  | .acculW _ _ => none
  | .accurH _ _ => none
  | .accurW _ _ => none
  | .accslH _ _ => none
  | .accslW _ _ => none
  | .accsrH _ _ => none
  | .accsrW _ _ => none
  | .vshfrB _ _ _ _ => none
  | .bmrV _ _ _ _ => none

/-- What an instruction that completes writes besides the pc (R56). -/
inductive Effect
  | vector (wd : VReg)
  /-- FCMUL.W: also MSACSR.Cause and MSACSR.Flags (R47) -/
  | vectorAndStatus (wd : VReg)
  | vectorAndBase (wd : VReg) (base : GReg)
  | memory
  | memoryAndBase (base : GReg)
  deriving DecidableEq, Repr

/-- The vector register written. -/
def Effect.wr : Effect → Option VReg
  | .vector wd => some wd
  | .vectorAndStatus wd => some wd
  | .vectorAndBase wd _ => some wd
  | .memory => none
  | .memoryAndBase _ => none

/-- The general register written. -/
def Effect.gpr : Effect → Option GReg
  | .vector _ => none
  | .vectorAndStatus _ => none
  | .vectorAndBase _ base => some base
  | .memory => none
  | .memoryAndBase base => some base

/-- Memory is written. -/
def Effect.stores : Effect → Bool
  | .vector _ => false
  | .vectorAndStatus _ => false
  | .vectorAndBase _ _ => false
  | .memory => true
  | .memoryAndBase _ => true

/-- MSACSR.Cause and MSACSR.Flags are written. -/
def Effect.status : Effect → Bool
  | .vector _ => false
  | .vectorAndStatus _ => true
  | .vectorAndBase _ _ => false
  | .memory => false
  | .memoryAndBase _ => false

/-- What each instruction writes (R56). -/
def effectOf : Instr → Effect
  | .fexuplcW wd _ _ => .vector wd
  | .fcmulW wd _ _ => .vectorAndStatus wd
  | .fexuprcW wd _ _ => .vector wd
  | .addslH wd _ _ => .vector wd
  | .addslW wd _ _ => .vector wd
  | .addsrH wd _ _ => .vector wd
  | .addsrW wd _ _ => .vector wd
  | .addulH wd _ _ => .vector wd
  | .addulW wd _ _ => .vector wd
  | .addurH wd _ _ => .vector wd
  | .addurW wd _ _ => .vector wd
  | .subslH wd _ _ => .vector wd
  | .subslW wd _ _ => .vector wd
  | .subsrH wd _ _ => .vector wd
  | .subsrW wd _ _ => .vector wd
  | .subulH wd _ _ => .vector wd
  | .subulW wd _ _ => .vector wd
  | .suburH wd _ _ => .vector wd
  | .suburW wd _ _ => .vector wd
  | .mulslH wd _ _ => .vector wd
  | .mulslW wd _ _ => .vector wd
  | .mulsrH wd _ _ => .vector wd
  | .mulsrW wd _ _ => .vector wd
  | .mululH wd _ _ => .vector wd
  | .mululW wd _ _ => .vector wd
  | .mulurH wd _ _ => .vector wd
  | .mulurW wd _ _ => .vector wd
  | .sllV wd _ _ => .vector wd
  | .bmuV wd _ _ => .vector wd
  | .srlV wd _ _ => .vector wd
  | .satssB wd _ _ => .vector wd
  | .satssH wd _ _ => .vector wd
  | .satuuB wd _ _ => .vector wd
  | .satuuH wd _ _ => .vector wd
  | .satusB wd _ _ => .vector wd
  | .satusH wd _ _ => .vector wd
  | .movbtB wd _ _ => .vector wd
  | .movbpB wd _ _ => .vector wd
  | .moveW wd _ _ _ => .vector wd
  | .stextuW _ _ base => .memoryAndBase base
  | .stextuD _ _ base => .memoryAndBase base
  | .ldinsW wd _ _ _ => .vector wd
  | .ldinsD wd _ _ _ => .vector wd
  | .ldinssW wd _ _ _ => .vector wd
  | .vsldiB wd _ _ _ => .vector wd
  | .stextW _ _ _ _ => .memory
  | .stextD _ _ _ _ => .memory
  | .ldinssuW wd _ _ base => .vectorAndBase wd base
  | .ldinssu2W wd _ _ base => .vectorAndBase wd base
  | .ldinsuW wd _ _ base => .vectorAndBase wd base
  | .ldinsuD wd _ _ base => .vectorAndBase wd base
  | .pcntV wd _ => .vector wd
  | .slliV wd _ _ => .vector wd
  | .srliV wd _ _ => .vector wd
  | .bextB wd _ => .vector wd
  | .bextH wd _ => .vector wd
  | .bextW wd _ => .vector wd
  | .bexpB wd _ => .vector wd
  | .bexpH wd _ => .vector wd
  | .bexpW wd _ => .vector wd
  | .bexp2B wd _ => .vector wd
  | .bexp4B wd _ => .vector wd
  | .acculH wd _ => .vector wd
  | .acculW wd _ => .vector wd
  | .accurH wd _ => .vector wd
  | .accurW wd _ => .vector wd
  | .accslH wd _ => .vector wd
  | .accslW wd _ => .vector wd
  | .accsrH wd _ => .vector wd
  | .accsrW wd _ => .vector wd
  | .vshfrB wd _ _ _ => .vector wd
  | .bmrV wd _ _ _ => .vector wd

/-! ## Frames -/

/-- The CP0 registers that only trap entry writes are as before (R56, R359). -/
structure SameCP0 (s t : State) : Prop where
  config3 : t.config3 = s.config3
  config5 : t.config5 = s.config5
  status : t.status = s.status
  cause : t.cause = s.cause
  epc : t.epc = s.epc
  badVAddr : t.badVAddr = s.badVAddr

/-- The launch-time inputs and the parameters are as before. -/
structure SameLaunch (s t : State) : Prop where
  launchMemory : t.launchMemory = s.launchMemory
  text : t.text = s.text
  inDelaySlot : t.inDelaySlot = s.inDelaySlot
  params : t.params = s.params

/-- Every byte of memory reads as before. -/
def SameMemory (s t : State) : Prop := ∀ a : Nat, memGet t.mem a = memGet s.mem a

/-- Every byte of memory outside the `n` addresses from `p` on reads as before (R74). -/
def SameMemoryOutside (p : Addr) (n : Nat) (s t : State) : Prop :=
  ∀ a : Nat, (∀ q ∈ span p n, a ≠ q.toNat) → memGet t.mem a = memGet s.mem a

/-- Nothing but what `e` names is written, and the pc is at the next word (R36, R56). MSACSR keeps every bit outside
Cause and Flags (R47). -/
structure Wrote (e : Effect) (s t : State) : Prop where
  wrs : ∀ r, e.wr ≠ some r → readWr t r = readWr s r
  gprs : ∀ r, e.gpr ≠ some r → readGpr t r = readGpr s r
  memory : e.stores = false → SameMemory s t
  msacsr : e.status = false → t.msacsr = s.msacsr
  msacsrRest : t.msacsr &&& 0xFFFC0F83#32 = s.msacsr &&& 0xFFFC0F83#32
  cp0 : SameCP0 s t
  launch : SameLaunch s t
  pc : t.pc = nextPc s
  trap : t.trap = s.trap

/-- As `Wrote`, and no unspecified value has been drawn. -/
structure WroteOnly (e : Effect) (s t : State) : Prop extends Wrote e s t where
  draws : t.draws = s.draws

/-- The base register has received `v`; with base 0 the update is lost (R35, R245). -/
def BaseUpdated (base : GReg) (v : Addr) (t : State) : Prop := readGpr t base = if base = 0#5 then 0#64 else v

/-- The instruction completes, writes nothing but `WR[wd]`, and the new `WR[wd]` satisfies `P`. -/
def CompletesWriting (i : Instr) (wd : VReg) (s : State) (P : Vec → Prop) : Prop :=
  ∃ t, exec i s = .next t ∧ WroteOnly (.vector wd) s t ∧ P (readWr t wd)

/-- The load completes, writes nothing but `WR[wd]` and the base register, which receives `v`, and the new `WR[wd]`
satisfies `P`. -/
def CompletesUpdating (i : Instr) (wd : VReg) (base : GReg) (v : Addr) (s : State) (P : Vec → Prop) : Prop :=
  ∃ t, exec i s = .next t ∧ WroteOnly (.vectorAndBase wd base) s t ∧ BaseUpdated base v t ∧ P (readWr t wd)

/-- What trap entry leaves: "no vector register, no general register, no memory byte and no MSACSR field" changes
(R358), nor what only the launch gives. -/
structure TrapKept (s t : State) : Prop where
  wrs : ∀ r, readWr t r = readWr s r
  gprs : ∀ r, readGpr t r = readGpr s r
  memory : SameMemory s t
  msacsr : t.msacsr = s.msacsr
  draws : t.draws = s.draws
  config3 : t.config3 = s.config3
  config5 : t.config5 = s.config5
  launch : SameLaunch s t

/-- The exception with code `code` has been taken (R359): the address of the instruction, the code, BD = 0, EXL = 1,
every other bit of Cause and Status as before, BadVAddr the address if there is one and as before if not, the pc at the
vector, the run's outcome `Trap(code, EPC, BadVAddr if any)` (R409 b), and nothing else. -/
structure TookException (code : BitVec 5) (vaddr : Option Addr) (s t : State) : Prop where
  epc : t.epc = s.pc
  excCode : causeExcCode t = code
  bd : causeBD t = false
  causeRest : t.cause &&& 0x7FFFFF83#32 = s.cause &&& 0x7FFFFF83#32
  exl : statusEXL t = true
  statusRest : t.status &&& 0xFFFFFFFD#32 = s.status &&& 0xFFFFFFFD#32
  badVAddr : t.badVAddr = vaddr.getD s.badVAddr
  pc : t.pc = s.params.genExcVector
  trap : t.trap = some ⟨code, s.pc, vaddr⟩
  kept : TrapKept s t

/-! ## The invariant of every step -/

/-- Memory is in its canonical form and inside the address space (R54), the reserved bits of MSACSR are 0 (R46), the pc
and the exception vector are multiples of 4 and of `GPRLEN` bits (R36), the place of `GPR[0]` holds 0 (R35), and every
general register is of `GPRLEN` bits (R34). -/
abbrev Inv (s : State) : Prop :=
  s.mem.wf ∧ (∀ c ∈ s.mem, c.1 < 2 ^ gprBits s.params.gprLen) ∧ s.msacsr &&& msacsrReserved = 0#32
    ∧ (aligned s.pc 4 = true ∧ wrapAddr s s.pc = s.pc)
    ∧ (aligned s.params.genExcVector 4 = true ∧ wrapAddr s s.params.genExcVector = s.params.genExcVector)
    ∧ s.gpr[0] = 0#64 ∧ ∀ r : GReg, wrapAddr s s.gpr[r.toNat] = s.gpr[r.toNat]

/-! ## Accesses -/

/-- A load of `n` bytes at `v` reads `x`: aligned, translated without a fault, allowed by the launch, every byte holding
a value (R75, R80, R81). -/
def loads (s : State) (v : Addr) (n : Nat) (x : BitVec (8 * n)) : Prop :=
  aligned v n = true ∧ (translate s .load v).isSome = true ∧ checkAccess s .load v n = .next ()
    ∧ memRead s.mem s.params.endian v n = some x

/-- A store of `n` bytes goes to `v`: aligned, translated without a fault, allowed by the launch (R75, R80, R81, R85). -/
def storesTo (s : State) (v : Addr) (n : Nat) : Prop :=
  aligned v n = true ∧ (translate s .store v).isSome = true ∧ checkAccess s .store v n = .next ()

/-- The four bytes of the word `w` stand at an aligned pc inside the text, outside a delay slot, in a run that no
exception has ended (R36, R77, R85, R409). -/
def fetches (s : State) (w : Word) : Prop :=
  s.trap = none ∧ s.inDelaySlot = false ∧ aligned s.pc 4 = true ∧ inText s s.pc = true
    ∧ memBytes s.mem s.pc 4 = some (bytesOfNat s.params.endian 4 w.toNat)

/-! ## Numbers -/

/-- A normal single-precision number: exponent field 1 to 254 (R150). -/
def isNormal (x : Word) : Bool := decide (1 ≤ fpExp x) && decide (fpExp x ≤ 254)

/-- The number that a finite single-precision bit pattern stands for (R150). -/
def singleValue (x : Word) : ℚ :=
  (if fpSign x then -1 else 1) *
    (if fpExp x = 0 then (fpFrac x : ℚ) * 2 ^ (-149 : ℤ) else ((2 ^ 23 + fpFrac x : Nat) : ℚ) * 2 ^ ((fpExp x : ℤ) - 150))

/-- The number that a finite operand of FCMUL.W enters the arithmetic as: a subnormal counts as zero (R152). -/
def operandValue (x : Word) : ℚ := if fpExp x = 0 then 0 else singleValue x

/-- A number that is zero or exactly a normal single-precision number (R156 ii). -/
def isSingle (v : ℚ) : Prop := v = 0 ∨ ∃ x, isNormal x = true ∧ singleValue x = v

/-- The largest finite single-precision magnitude, (2 - 2^-23) * 2^127 (R153). -/
def maxSingle : ℚ := (2 ^ 24 - 1) * 2 ^ 104

/-- The number that an XHS bit pattern stands for: 0, or `(-1)^S * 2^(E - bias) * (1 + F / 2^fbits)` (R213). -/
def xhsValue (a : BitVec 16) (ebits bias : Nat) : ℚ :=
  if xhsExp a ebits = 0 ∧ xhsFrac a ebits = 0 then 0
  else (if xhsSign a then -1 else 1) * 2 ^ ((xhsExp a ebits : ℤ) - (bias : ℤ))
    * (1 + (xhsFrac a ebits : ℚ) / 2 ^ (15 - ebits))

end Sys2Proof.Machine
end

