-- ==== Sys2Proof/Certificates/Slice0/Obligations.lean ====
section
/-! DEFINITION. The statements for the provers, family by family, then the exceptions, memory, the decoder and the step.
`v.extractLsb' lo n` is the spec's slice `v[lo+n-1 : lo]` (R9). Clauses that rest on the spec's own decisions and not on
its source: a completion moves the pc to the next word (R36, D2) and reads its operands before it writes (R17, D4); what
trap entry writes, and that EXL = 0 is its premise (R359, R363, D9); `GPR[0]` is zero (R35, D25); addresses and sums
wrap (R10, D5); an unallocated word is reserved (R124, D7). That the outcome Trap is the
step after the entry is the model's (log 23). The places of Status.EXL, Status.CU2 and Cause.BD are the family's (log 3).
Every statement holds for both values of `GPRLEN`. -/

open Sys2Proof Sys2Proof.Machine

/-! ## Integer arithmetic -/

/-- ADDSL, ADDSR: exact sums of the sign-extended elements of a half (R294 to R298). -/
def Obligations.AddSigned : Prop :=
  ∀ (s : State) (wd ws wt : VReg), executes s = true →
    CompletesWriting (.addslH wd ws wt) wd s (fun z => ∀ i : Nat, i < 8 →
      (z.extractLsb' (16 * i) 16).toInt
        = ((readWr s ws).extractLsb' (8 * i + 64) 8).toInt + ((readWr s wt).extractLsb' (8 * i + 64) 8).toInt)
    ∧ CompletesWriting (.addsrH wd ws wt) wd s (fun z => ∀ i : Nat, i < 8 →
      (z.extractLsb' (16 * i) 16).toInt
        = ((readWr s ws).extractLsb' (8 * i) 8).toInt + ((readWr s wt).extractLsb' (8 * i) 8).toInt)
    ∧ CompletesWriting (.addslW wd ws wt) wd s (fun z => ∀ i : Nat, i < 4 →
      (z.extractLsb' (32 * i) 32).toInt
        = ((readWr s ws).extractLsb' (16 * i + 64) 16).toInt + ((readWr s wt).extractLsb' (16 * i + 64) 16).toInt)
    ∧ CompletesWriting (.addsrW wd ws wt) wd s (fun z => ∀ i : Nat, i < 4 →
      (z.extractLsb' (32 * i) 32).toInt
        = ((readWr s ws).extractLsb' (16 * i) 16).toInt + ((readWr s wt).extractLsb' (16 * i) 16).toInt)

/-- ADDUL, ADDUR: exact sums of the zero-extended elements of a half (R294, R299 to R302). -/
def Obligations.AddUnsigned : Prop :=
  ∀ (s : State) (wd ws wt : VReg), executes s = true →
    CompletesWriting (.addulH wd ws wt) wd s (fun z => ∀ i : Nat, i < 8 →
      (z.extractLsb' (16 * i) 16).toNat
        = ((readWr s ws).extractLsb' (8 * i + 64) 8).toNat + ((readWr s wt).extractLsb' (8 * i + 64) 8).toNat)
    ∧ CompletesWriting (.addurH wd ws wt) wd s (fun z => ∀ i : Nat, i < 8 →
      (z.extractLsb' (16 * i) 16).toNat
        = ((readWr s ws).extractLsb' (8 * i) 8).toNat + ((readWr s wt).extractLsb' (8 * i) 8).toNat)
    ∧ CompletesWriting (.addulW wd ws wt) wd s (fun z => ∀ i : Nat, i < 4 →
      (z.extractLsb' (32 * i) 32).toNat
        = ((readWr s ws).extractLsb' (16 * i + 64) 16).toNat + ((readWr s wt).extractLsb' (16 * i + 64) 16).toNat)
    ∧ CompletesWriting (.addurW wd ws wt) wd s (fun z => ∀ i : Nat, i < 4 →
      (z.extractLsb' (32 * i) 32).toNat
        = ((readWr s ws).extractLsb' (16 * i) 16).toNat + ((readWr s wt).extractLsb' (16 * i) 16).toNat)

/-- ACCSL, ACCSR: the sign-extended elements of a half added to the old destination, wrapping silently (R290, R303 to
R306). -/
def Obligations.AccumulateSigned : Prop :=
  ∀ (s : State) (wd ws : VReg), executes s = true →
    CompletesWriting (.accslH wd ws) wd s (fun z => ∀ i : Nat, i < 8 →
      (z.extractLsb' (16 * i) 16).toInt = (((readWr s ws).extractLsb' (8 * i + 64) 8).toInt
        + ((readWr s wd).extractLsb' (16 * i) 16).toInt).bmod (2 ^ 16))
    ∧ CompletesWriting (.accsrH wd ws) wd s (fun z => ∀ i : Nat, i < 8 →
      (z.extractLsb' (16 * i) 16).toInt = (((readWr s ws).extractLsb' (8 * i) 8).toInt
        + ((readWr s wd).extractLsb' (16 * i) 16).toInt).bmod (2 ^ 16))
    ∧ CompletesWriting (.accslW wd ws) wd s (fun z => ∀ i : Nat, i < 4 →
      (z.extractLsb' (32 * i) 32).toInt = (((readWr s ws).extractLsb' (16 * i + 64) 16).toInt
        + ((readWr s wd).extractLsb' (32 * i) 32).toInt).bmod (2 ^ 32))
    ∧ CompletesWriting (.accsrW wd ws) wd s (fun z => ∀ i : Nat, i < 4 →
      (z.extractLsb' (32 * i) 32).toInt = (((readWr s ws).extractLsb' (16 * i) 16).toInt
        + ((readWr s wd).extractLsb' (32 * i) 32).toInt).bmod (2 ^ 32))

/-- ACCUL, ACCUR: the zero-extended elements of a half added to the old destination, wrapping silently (R290, R307 to
R310). -/
def Obligations.AccumulateUnsigned : Prop :=
  ∀ (s : State) (wd ws : VReg), executes s = true →
    CompletesWriting (.acculH wd ws) wd s (fun z => ∀ i : Nat, i < 8 →
      (z.extractLsb' (16 * i) 16).toNat = (((readWr s ws).extractLsb' (8 * i + 64) 8).toNat
        + ((readWr s wd).extractLsb' (16 * i) 16).toNat) % 2 ^ 16)
    ∧ CompletesWriting (.accurH wd ws) wd s (fun z => ∀ i : Nat, i < 8 →
      (z.extractLsb' (16 * i) 16).toNat = (((readWr s ws).extractLsb' (8 * i) 8).toNat
        + ((readWr s wd).extractLsb' (16 * i) 16).toNat) % 2 ^ 16)
    ∧ CompletesWriting (.acculW wd ws) wd s (fun z => ∀ i : Nat, i < 4 →
      (z.extractLsb' (32 * i) 32).toNat = (((readWr s ws).extractLsb' (16 * i + 64) 16).toNat
        + ((readWr s wd).extractLsb' (32 * i) 32).toNat) % 2 ^ 32)
    ∧ CompletesWriting (.accurW wd ws) wd s (fun z => ∀ i : Nat, i < 4 →
      (z.extractLsb' (32 * i) 32).toNat = (((readWr s ws).extractLsb' (16 * i) 16).toNat
        + ((readWr s wd).extractLsb' (32 * i) 32).toNat) % 2 ^ 32)

/-- SUBSL, SUBSR: exact differences ws minus wt of the sign-extended elements of a half (R294, R321 to R324). -/
def Obligations.SubtractSigned : Prop :=
  ∀ (s : State) (wd ws wt : VReg), executes s = true →
    CompletesWriting (.subslH wd ws wt) wd s (fun z => ∀ i : Nat, i < 8 →
      (z.extractLsb' (16 * i) 16).toInt
        = ((readWr s ws).extractLsb' (8 * i + 64) 8).toInt - ((readWr s wt).extractLsb' (8 * i + 64) 8).toInt)
    ∧ CompletesWriting (.subsrH wd ws wt) wd s (fun z => ∀ i : Nat, i < 8 →
      (z.extractLsb' (16 * i) 16).toInt
        = ((readWr s ws).extractLsb' (8 * i) 8).toInt - ((readWr s wt).extractLsb' (8 * i) 8).toInt)
    ∧ CompletesWriting (.subslW wd ws wt) wd s (fun z => ∀ i : Nat, i < 4 →
      (z.extractLsb' (32 * i) 32).toInt
        = ((readWr s ws).extractLsb' (16 * i + 64) 16).toInt - ((readWr s wt).extractLsb' (16 * i + 64) 16).toInt)
    ∧ CompletesWriting (.subsrW wd ws wt) wd s (fun z => ∀ i : Nat, i < 4 →
      (z.extractLsb' (32 * i) 32).toInt
        = ((readWr s ws).extractLsb' (16 * i) 16).toInt - ((readWr s wt).extractLsb' (16 * i) 16).toInt)

/-- SUBUL, SUBUR: differences ws minus wt of the zero-extended elements of a half; a negative one wraps (R290, R325 to
R328). -/
def Obligations.SubtractUnsigned : Prop :=
  ∀ (s : State) (wd ws wt : VReg), executes s = true →
    CompletesWriting (.subulH wd ws wt) wd s (fun z => ∀ i : Nat, i < 8 →
      ((z.extractLsb' (16 * i) 16).toNat : Int)
        = ((((readWr s ws).extractLsb' (8 * i + 64) 8).toNat : Int)
          - ((readWr s wt).extractLsb' (8 * i + 64) 8).toNat) % 2 ^ 16)
    ∧ CompletesWriting (.suburH wd ws wt) wd s (fun z => ∀ i : Nat, i < 8 →
      ((z.extractLsb' (16 * i) 16).toNat : Int)
        = ((((readWr s ws).extractLsb' (8 * i) 8).toNat : Int) - ((readWr s wt).extractLsb' (8 * i) 8).toNat) % 2 ^ 16)
    ∧ CompletesWriting (.subulW wd ws wt) wd s (fun z => ∀ i : Nat, i < 4 →
      ((z.extractLsb' (32 * i) 32).toNat : Int)
        = ((((readWr s ws).extractLsb' (16 * i + 64) 16).toNat : Int)
          - ((readWr s wt).extractLsb' (16 * i + 64) 16).toNat) % 2 ^ 32)
    ∧ CompletesWriting (.suburW wd ws wt) wd s (fun z => ∀ i : Nat, i < 4 →
      ((z.extractLsb' (32 * i) 32).toNat : Int)
        = ((((readWr s ws).extractLsb' (16 * i) 16).toNat : Int) - ((readWr s wt).extractLsb' (16 * i) 16).toNat) % 2 ^ 32)

/-- MULSL, MULSR: exact products of the sign-extended elements of a half (R294, R329 to R332). -/
def Obligations.MultiplySigned : Prop :=
  ∀ (s : State) (wd ws wt : VReg), executes s = true →
    CompletesWriting (.mulslH wd ws wt) wd s (fun z => ∀ i : Nat, i < 8 →
      (z.extractLsb' (16 * i) 16).toInt
        = ((readWr s ws).extractLsb' (8 * i + 64) 8).toInt * ((readWr s wt).extractLsb' (8 * i + 64) 8).toInt)
    ∧ CompletesWriting (.mulsrH wd ws wt) wd s (fun z => ∀ i : Nat, i < 8 →
      (z.extractLsb' (16 * i) 16).toInt
        = ((readWr s ws).extractLsb' (8 * i) 8).toInt * ((readWr s wt).extractLsb' (8 * i) 8).toInt)
    ∧ CompletesWriting (.mulslW wd ws wt) wd s (fun z => ∀ i : Nat, i < 4 →
      (z.extractLsb' (32 * i) 32).toInt
        = ((readWr s ws).extractLsb' (16 * i + 64) 16).toInt * ((readWr s wt).extractLsb' (16 * i + 64) 16).toInt)
    ∧ CompletesWriting (.mulsrW wd ws wt) wd s (fun z => ∀ i : Nat, i < 4 →
      (z.extractLsb' (32 * i) 32).toInt
        = ((readWr s ws).extractLsb' (16 * i) 16).toInt * ((readWr s wt).extractLsb' (16 * i) 16).toInt)

/-- MULUL, MULUR: exact products of the zero-extended elements of a half (R294, R333 to R336). -/
def Obligations.MultiplyUnsigned : Prop :=
  ∀ (s : State) (wd ws wt : VReg), executes s = true →
    CompletesWriting (.mululH wd ws wt) wd s (fun z => ∀ i : Nat, i < 8 →
      (z.extractLsb' (16 * i) 16).toNat
        = ((readWr s ws).extractLsb' (8 * i + 64) 8).toNat * ((readWr s wt).extractLsb' (8 * i + 64) 8).toNat)
    ∧ CompletesWriting (.mulurH wd ws wt) wd s (fun z => ∀ i : Nat, i < 8 →
      (z.extractLsb' (16 * i) 16).toNat
        = ((readWr s ws).extractLsb' (8 * i) 8).toNat * ((readWr s wt).extractLsb' (8 * i) 8).toNat)
    ∧ CompletesWriting (.mululW wd ws wt) wd s (fun z => ∀ i : Nat, i < 4 →
      (z.extractLsb' (32 * i) 32).toNat
        = ((readWr s ws).extractLsb' (16 * i + 64) 16).toNat * ((readWr s wt).extractLsb' (16 * i + 64) 16).toNat)
    ∧ CompletesWriting (.mulurW wd ws wt) wd s (fun z => ∀ i : Nat, i < 4 →
      (z.extractLsb' (32 * i) 32).toNat
        = ((readWr s ws).extractLsb' (16 * i) 16).toNat * ((readWr s wt).extractLsb' (16 * i) 16).toNat)

/-- SATSS, SATUS, SATUU: each element of `WR[ws] || WR[wt]` clamped, in place order (R311 to R314). -/
def Obligations.Saturate : Prop :=
  ∀ (s : State) (wd ws wt : VReg), executes s = true →
    CompletesWriting (.satssB wd ws wt) wd s (fun z => ∀ i : Nat, i < 16 →
      (z.extractLsb' (8 * i) 8).toInt
        = max (-128) (min 127 ((readWr s ws ++ readWr s wt).extractLsb' (16 * i) 16).toInt))
    ∧ CompletesWriting (.satssH wd ws wt) wd s (fun z => ∀ i : Nat, i < 8 →
      (z.extractLsb' (16 * i) 16).toInt
        = max (-32768) (min 32767 ((readWr s ws ++ readWr s wt).extractLsb' (32 * i) 32).toInt))
    ∧ CompletesWriting (.satusB wd ws wt) wd s (fun z => ∀ i : Nat, i < 16 →
      ((z.extractLsb' (8 * i) 8).toNat : Int)
        = max 0 (min 255 ((readWr s ws ++ readWr s wt).extractLsb' (16 * i) 16).toInt))
    ∧ CompletesWriting (.satusH wd ws wt) wd s (fun z => ∀ i : Nat, i < 8 →
      ((z.extractLsb' (16 * i) 16).toNat : Int)
        = max 0 (min 65535 ((readWr s ws ++ readWr s wt).extractLsb' (32 * i) 32).toInt))
    ∧ CompletesWriting (.satuuB wd ws wt) wd s (fun z => ∀ i : Nat, i < 16 →
      (z.extractLsb' (8 * i) 8).toNat = min 255 ((readWr s ws ++ readWr s wt).extractLsb' (16 * i) 16).toNat)
    ∧ CompletesWriting (.satuuH wd ws wt) wd s (fun z => ∀ i : Nat, i < 8 →
      (z.extractLsb' (16 * i) 16).toNat = min 65535 ((readWr s ws ++ readWr s wt).extractLsb' (32 * i) 32).toNat)

/-! ## Bitwise -/

/-- BMR.V: each bit from ws where wr is 1, from wt where it is 0 (R171). -/
def Obligations.BitMoveByRegister : Prop :=
  ∀ (s : State) (wd ws wt wr : VReg), executes s = true →
    CompletesWriting (.bmrV wd ws wt wr) wd s (fun z => ∀ k : Nat, k < 128 →
      z.getLsbD k = if (readWr s wr).getLsbD k then (readWr s ws).getLsbD k else (readWr s wt).getLsbD k)

/-- PCNT.V: the register as a number is the count of ones of the whole source (R172). -/
def Obligations.PopulationCount : Prop :=
  ∀ (s : State) (wd ws : VReg), executes s = true →
    CompletesWriting (.pcntV wd ws) wd s (fun z =>
      z.toNat = ((List.range 128).filter fun i => (readWr s ws).getLsbD i).length)

/-- BEXT: bit `i` is the top bit of element `i`, every other bit is 0 (R173). -/
def Obligations.BitExtract : Prop :=
  ∀ (s : State) (wd ws : VReg), executes s = true →
    CompletesWriting (.bextB wd ws) wd s (fun z => ∀ k : Nat,
      z.getLsbD k = (decide (k < 16) && (readWr s ws).getLsbD (8 * k + 7)))
    ∧ CompletesWriting (.bextH wd ws) wd s (fun z => ∀ k : Nat,
      z.getLsbD k = (decide (k < 8) && (readWr s ws).getLsbD (16 * k + 15)))
    ∧ CompletesWriting (.bextW wd ws) wd s (fun z => ∀ k : Nat,
      z.getLsbD k = (decide (k < 4) && (readWr s ws).getLsbD (32 * k + 31)))

/-- BEXP: every bit of element `i` is bit `i` of the source (R177). -/
def Obligations.BitExpand : Prop :=
  ∀ (s : State) (wd ws : VReg), executes s = true →
    CompletesWriting (.bexp2B wd ws) wd s (fun z => ∀ k : Nat, k < 128 → z.getLsbD k = (readWr s ws).getLsbD (k / 2))
    ∧ CompletesWriting (.bexp4B wd ws) wd s (fun z => ∀ k : Nat, k < 128 → z.getLsbD k = (readWr s ws).getLsbD (k / 4))
    ∧ CompletesWriting (.bexpB wd ws) wd s (fun z => ∀ k : Nat, k < 128 → z.getLsbD k = (readWr s ws).getLsbD (k / 8))
    ∧ CompletesWriting (.bexpH wd ws) wd s (fun z => ∀ k : Nat, k < 128 → z.getLsbD k = (readWr s ws).getLsbD (k / 16))
    ∧ CompletesWriting (.bexpW wd ws) wd s (fun z => ∀ k : Nat, k < 128 → z.getLsbD k = (readWr s ws).getLsbD (k / 32))

/-- BMU.V under both values of `BMU_SRC_INDEX`: up to bit `wt[3:0]` a set bit of wd takes bit `i` of ws, or the bit of ws
numbered by the set bits of wd below it; every other bit keeps its value (R183, R184). -/
def Obligations.BitMaskUpdate : Prop :=
  ∀ (s : State) (wd ws wt : VReg), executes s = true →
    CompletesWriting (.bmuV wd ws wt) wd s (fun z => ∀ k : Nat, k < 128 →
      z.getLsbD k =
        if k ≤ (readWr s wt).toNat % 16 then
          (readWr s wd).getLsbD k && (readWr s ws).getLsbD
            (if s.params.bmuSrcIndex = .i then k
             else ((List.range k).filter fun i => (readWr s wd).getLsbD i).length)
        else (readWr s wd).getLsbD k)

/-- SLL.V, SRL.V: the register as a number multiplied or divided by the power of two that `wt[6:0]` names (R185, R187). -/
def Obligations.VectorShift : Prop :=
  ∀ (s : State) (wd ws wt : VReg), executes s = true →
    CompletesWriting (.sllV wd ws wt) wd s (fun z =>
      z.toNat = (readWr s ws).toNat * 2 ^ ((readWr s wt).toNat % 128) % 2 ^ 128)
    ∧ CompletesWriting (.srlV wd ws wt) wd s (fun z =>
      z.toNat = (readWr s ws).toNat / 2 ^ ((readWr s wt).toNat % 128))

/-- SLLI.V, SRLI.V: the register as a number multiplied or divided by `2^m` (R186, R188). -/
def Obligations.VectorShiftImmediate : Prop :=
  ∀ (s : State) (wd ws : VReg) (m : Nat), executes s = true → m < 32 →
    CompletesWriting (.slliV wd ws m) wd s (fun z => z.toNat = (readWr s ws).toNat * 2 ^ m % 2 ^ 128)
    ∧ CompletesWriting (.srliV wd ws m) wd s (fun z => z.toNat = (readWr s ws).toNat / 2 ^ m)

/-- MOVBT.B: a byte whose mask bit is 1 goes to the place that counts the mask bits below it; the bytes from the number
of mask bits on are 0 (R189). -/
def Obligations.MoveByteExtract : Prop :=
  ∀ (s : State) (wd ws wt : VReg), executes s = true →
    CompletesWriting (.movbtB wd ws wt) wd s (fun z =>
      (∀ i : Nat, i < 16 → (readWr s wt).getLsbD i = true →
        z.extractLsb' (8 * ((List.range i).filter fun j => (readWr s wt).getLsbD j).length) 8
          = (readWr s ws).extractLsb' (8 * i) 8)
      ∧ ∀ i : Nat, i < 16 → ((List.range 16).filter fun j => (readWr s wt).getLsbD j).length ≤ i →
        z.extractLsb' (8 * i) 8 = 0#8)

/-- MOVBP.B: a place whose mask bit is 1 receives the byte that counts the mask bits below it; the other bytes are 0
(R190). -/
def Obligations.MoveByteExpand : Prop :=
  ∀ (s : State) (wd ws wt : VReg), executes s = true →
    CompletesWriting (.movbpB wd ws wt) wd s (fun z => ∀ i : Nat, i < 16 →
      z.extractLsb' (8 * i) 8 =
        if (readWr s wt).getLsbD i then
          (readWr s ws).extractLsb' (8 * ((List.range i).filter fun j => (readWr s wt).getLsbD j).length) 8
        else 0#8)

/-- "It is the inverse of MOVBT.B on the masked positions" (R190): MOVBT.B and then MOVBP.B under the same mask keep the
masked bytes and clear the others. -/
def Obligations.ExpandInvertsExtract : Prop :=
  ∀ (s : State) (w1 w2 ws wt : VReg), executes s = true → w1 ≠ wt →
    ∃ t, exec (.movbtB w1 ws wt) s = .next t ∧
      CompletesWriting (.movbpB w2 w1 wt) w2 t (fun z => ∀ i : Nat, i < 16 →
        z.extractLsb' (8 * i) 8 = if (readWr s wt).getLsbD i then (readWr s ws).extractLsb' (8 * i) 8 else 0#8)

/-! ## Element permute and move -/

/-- VSHFR.B: a control byte above 63 gives 0; else its value modulo 32 picks a byte of wt (0 to 15) or ws (16 to 31)
(R231). -/
def Obligations.Shuffle : Prop :=
  ∀ (s : State) (wd ws wt wr : VReg), executes s = true →
    CompletesWriting (.vshfrB wd ws wt wr) wd s (fun z => ∀ i : Nat, i < 16 →
      z.extractLsb' (8 * i) 8 =
        if 64 ≤ ((readWr s wr).extractLsb' (8 * i) 8).toNat then 0#8
        else if ((readWr s wr).extractLsb' (8 * i) 8).toNat % 32 < 16 then
          (readWr s wt).extractLsb' (8 * (((readWr s wr).extractLsb' (8 * i) 8).toNat % 32)) 8
        else (readWr s ws).extractLsb' (8 * (((readWr s wr).extractLsb' (8 * i) 8).toNat % 32 - 16)) 8)

/-- VSLDI.B: the upper bytes of ws move down by `n` and the lower `n` bytes of wt fill the top (R232). -/
def Obligations.Slide : Prop :=
  ∀ (s : State) (wd ws wt : VReg) (n : Nat), executes s = true → n < 16 →
    CompletesWriting (.vsldiB wd ws wt n) wd s (fun z => ∀ i : Nat, i < 16 →
      z.extractLsb' (8 * i) 8 =
        if i + n < 16 then (readWr s ws).extractLsb' (8 * (i + n)) 8
        else (readWr s wt).extractLsb' (8 * (i + n - 16)) 8)

/-- MOVE.W: word `m` of wd becomes word `n` of ws and the other three words are kept (R280). -/
def Obligations.MoveWord : Prop :=
  ∀ (s : State) (wd ws : VReg) (m n : Nat), executes s = true → m < 4 → n < 4 →
    CompletesWriting (.moveW wd m ws n) wd s (fun z => ∀ i : Nat, i < 4 →
      z.extractLsb' (32 * i) 32 =
        if i = m then (readWr s ws).extractLsb' (32 * n) 32 else (readWr s wd).extractLsb' (32 * i) 32)

/-! ## Floating point -/

/-- FCMUL.W completes for all operands and all of MSACSR: it never traps for a floating-point condition, Cause and Flags
become values that nothing constrains, every other MSACSR bit and all other state is kept (R157). The free values are
constants of Config applied to the model's draw count (log 12). -/
def Obligations.FcmulCompletes : Prop :=
  ∀ (s : State) (wd ws wt : VReg), executes s = true →
    ∃ t, exec (.fcmulW wd ws wt) s = .next t ∧ Wrote (.vectorAndStatus wd) s t
      ∧ msacsrCause t.msacsr = Config.freeFpCause s.draws ∧ msacsrFlags t.msacsr = Config.freeFpFlags s.draws
      ∧ t.draws = s.draws + 1

/-- FCMUL.W where every value is exact (R156 ii): finite parts, each product zero or exactly a normal single, and a sum
that is exactly a normal single, give that number, in the real part (word `2k`) and in the imaginary part (word
`2k + 1`) of complex element `k`. -/
def Obligations.FcmulExact : Prop :=
  ∀ (s : State) (wd ws wt : VReg) (k : Nat), executes s = true → k < 2 →
    ∃ t, exec (.fcmulW wd ws wt) s = .next t ∧
      ∀ ar ai br bi : Word,
        ar = (readWr s ws).extractLsb' (64 * k) 32 → ai = (readWr s ws).extractLsb' (64 * k + 32) 32 →
        br = (readWr s wt).extractLsb' (64 * k) 32 → bi = (readWr s wt).extractLsb' (64 * k + 32) 32 →
        fpExp ar ≠ 255 → fpExp ai ≠ 255 → fpExp br ≠ 255 → fpExp bi ≠ 255 →
        (∀ x y v : ℚ, x = operandValue ar * operandValue br → y = operandValue ai * operandValue bi → v = x - y →
          isSingle x → isSingle y → isSingle v → v ≠ 0 →
          isNormal ((readWr t wd).extractLsb' (64 * k) 32) = true
            ∧ singleValue ((readWr t wd).extractLsb' (64 * k) 32) = v)
        ∧ (∀ x y v : ℚ, x = operandValue ar * operandValue bi → y = operandValue ai * operandValue br → v = x + y →
          isSingle x → isSingle y → isSingle v → v ≠ 0 →
          isNormal ((readWr t wd).extractLsb' (64 * k + 32) 32) = true
            ∧ singleValue ((readWr t wd).extractLsb' (64 * k + 32) 32) = v)

/-- FCMUL.W, the real and the imaginary part, where a term overflows and the other does not work against it, and where
all four parts are zero or subnormal (R158 1 and 2); and where both terms of a part are exact zeros of the same effective
sign, the part is the zero of that sign (R156 iii; an operand whose exponent field is 0 counts as a zero, R152). That
"does not cancel it" means a term of the same sign or zero is the model's reading (log 10). -/
def Obligations.FcmulOverflowAndZero : Prop :=
  ∀ (s : State) (wd ws wt : VReg) (k : Nat), executes s = true → k < 2 →
    ∃ t, exec (.fcmulW wd ws wt) s = .next t ∧
      ∀ ar ai br bi : Word,
        ar = (readWr s ws).extractLsb' (64 * k) 32 → ai = (readWr s ws).extractLsb' (64 * k + 32) 32 →
        br = (readWr s wt).extractLsb' (64 * k) 32 → bi = (readWr s wt).extractLsb' (64 * k + 32) 32 →
        fpExp ar ≠ 255 → fpExp ai ≠ 255 → fpExp br ≠ 255 → fpExp bi ≠ 255 →
        (∀ x y : ℚ, x = operandValue ar * operandValue br → y = -(operandValue ai * operandValue bi) →
          ((maxSingle < x ∧ 0 ≤ y ∨ maxSingle < y ∧ 0 ≤ x) →
            (readWr t wd).extractLsb' (64 * k) 32 = 0x7F7FFFFF#32)
          ∧ ((x < -maxSingle ∧ y ≤ 0 ∨ y < -maxSingle ∧ x ≤ 0) →
            (readWr t wd).extractLsb' (64 * k) 32 = 0xFF7FFFFF#32))
        ∧ (∀ x y : ℚ, x = operandValue ar * operandValue bi → y = operandValue ai * operandValue br →
          ((maxSingle < x ∧ 0 ≤ y ∨ maxSingle < y ∧ 0 ≤ x) →
            (readWr t wd).extractLsb' (64 * k + 32) 32 = 0x7F7FFFFF#32)
          ∧ ((x < -maxSingle ∧ y ≤ 0 ∨ y < -maxSingle ∧ x ≤ 0) →
            (readWr t wd).extractLsb' (64 * k + 32) 32 = 0xFF7FFFFF#32))
        ∧ (fpExp ar = 0 → fpExp ai = 0 → fpExp br = 0 → fpExp bi = 0 →
          isZero ((readWr t wd).extractLsb' (64 * k) 32) = true
            ∧ isZero ((readWr t wd).extractLsb' (64 * k + 32) 32) = true)
        ∧ (∀ negative : Bool, (fpExp ar = 0 ∨ fpExp br = 0) → (fpExp ai = 0 ∨ fpExp bi = 0) →
          negative = (fpSign ar ^^ fpSign br) → negative = !(fpSign ai ^^ fpSign bi) →
          (readWr t wd).extractLsb' (64 * k) 32 = if negative then 0x80000000#32 else 0#32)
        ∧ (∀ negative : Bool, (fpExp ar = 0 ∨ fpExp bi = 0) → (fpExp ai = 0 ∨ fpExp br = 0) →
          negative = (fpSign ar ^^ fpSign bi) → negative = (fpSign ai ^^ fpSign br) →
          (readWr t wd).extractLsb' (64 * k + 32) 32 = if negative then 0x80000000#32 else 0#32)

/-- FCMUL.W never writes an infinity, a NaN or a subnormal, whatever its operands and whatever the open function
(R158 3). -/
def Obligations.FcmulSaturates : Prop :=
  ∀ (s : State) (wd ws wt : VReg), executes s = true →
    ∃ t, exec (.fcmulW wd ws wt) s = .next t ∧ ∀ i : Nat, i < 4 →
      fpExp ((readWr t wd).extractLsb' (32 * i) 32) ≠ 255
        ∧ (fpExp ((readWr t wd).extractLsb' (32 * i) 32) = 0 → fpFrac ((readWr t wd).extractLsb' (32 * i) 32) = 0)

/-- FEXUPLC.W and FEXUPRC.W with four valid control values (R211): an XHS number in the single-precision normal range
becomes the normal number of the same value (R213, R216); an XHS zero becomes a zero, its sign by `XHS_ZERO_SIGN`
(R217). The place of the XHS fields is D21's. -/
def Obligations.UpConvertValid : Prop :=
  ∀ (s : State) (wd ws wt : VReg) (h : Nat) (i : Instr), executes s = true →
    (i = .fexuplcW wd ws wt ∧ h = 64 ∨ i = .fexuprcW wd ws wt ∧ h = 0) →
    (∀ k : Nat, k < 4 → ∀ c : BitVec 16, c = (readWr s wt).extractLsb' (16 * k + h) 16 →
      2 ≤ c.toNat % 16 ∧ c.toNat % 16 ≤ 7 ∧ c.toNat / 16 % 128 ≤ 2 ^ (c.toNat % 16) - 1
        ∨ c.toNat % 16 = 8 ∧ c.toNat / 16 % 128 = 0x7F) →
    CompletesWriting i wd s (fun z => ∀ k : Nat, k < 4 → ∀ (a c : BitVec 16) (ebits bias : Nat),
      a = (readWr s ws).extractLsb' (16 * k + h) 16 → c = (readWr s wt).extractLsb' (16 * k + h) 16 →
      ebits = c.toNat % 16 → bias = c.toNat / 16 % 128 →
      (xhsExp a ebits = 0 → xhsFrac a ebits = 0 → z.extractLsb' (32 * k) 32 =
        if s.params.xhsZeroSign = .copy ∧ a.getLsbD 15 = true then 0x80000000#32 else 0#32)
      ∧ (xhsExp a ebits ≠ 0 ∨ xhsFrac a ebits ≠ 0 →
        -126 ≤ (xhsExp a ebits : Int) - bias → (xhsExp a ebits : Int) - bias ≤ 127 →
        isNormal (z.extractLsb' (32 * k) 32) = true
          ∧ singleValue (z.extractLsb' (32 * k) 32) = xhsValue a ebits bias))

/-- FEXUPLC.W and FEXUPRC.W with an invalid control value among the four they use: no exception, no state but `WR[wd]`
affected, and the whole of `WR[wd]` holds a value that nothing constrains (R211). The free value is a constant of Config
applied to the model's draw count (log 13). -/
def Obligations.UpConvertInvalid : Prop :=
  ∀ (s : State) (wd ws wt : VReg) (h : Nat) (i : Instr), executes s = true →
    (i = .fexuplcW wd ws wt ∧ h = 64 ∨ i = .fexuprcW wd ws wt ∧ h = 0) →
    (∃ k : Nat, k < 4 ∧ ∃ c : BitVec 16, c = (readWr s wt).extractLsb' (16 * k + h) 16 ∧
      ¬ (2 ≤ c.toNat % 16 ∧ c.toNat % 16 ≤ 7 ∧ c.toNat / 16 % 128 ≤ 2 ^ (c.toNat % 16) - 1)
      ∧ ¬ (c.toNat % 16 = 8 ∧ c.toNat / 16 % 128 = 0x7F)) →
    ∃ t, exec i s = .next t ∧ Wrote (.vector wd) s t ∧ readWr t wd = Config.freeVector s.draws ∧ t.draws = s.draws + 1

/-! ## Load and store -/

/-- LDINS.W, LDINS.D: element `n` becomes what memory holds at `GPR[base] + GPR[index]`, the other bits are kept (R240,
R244, R248, R249). -/
def Obligations.LoadInsert : Prop :=
  ∀ (s : State) (wd : VReg) (n : Nat) (index base : GReg), executes s = true →
    (∀ x : BitVec 32, n < 4 → loads s (addrIndexed s base index) 4 x →
      CompletesWriting (.ldinsW wd n index base) wd s (fun z => ∀ i : Nat, i < 4 →
        z.extractLsb' (32 * i) 32 = if i = n then x else (readWr s wd).extractLsb' (32 * i) 32))
    ∧ (∀ x : BitVec 64, n < 2 → loads s (addrIndexed s base index) 8 x →
      CompletesWriting (.ldinsD wd n index base) wd s (fun z => ∀ i : Nat, i < 2 →
        z.extractLsb' (64 * i) 64 = if i = n then x else (readWr s wd).extractLsb' (64 * i) 64))

/-- LDINSU.W, LDINSU.D: as LDINS, and the base register receives the address (R245, R250, R251). -/
def Obligations.LoadInsertUpdate : Prop :=
  ∀ (s : State) (wd : VReg) (n : Nat) (index base : GReg), executes s = true →
    (∀ x : BitVec 32, n < 4 → loads s (addrIndexed s base index) 4 x →
      CompletesUpdating (.ldinsuW wd n index base) wd base (addrIndexed s base index) s (fun z => ∀ i : Nat, i < 4 →
        z.extractLsb' (32 * i) 32 = if i = n then x else (readWr s wd).extractLsb' (32 * i) 32))
    ∧ (∀ x : BitVec 64, n < 2 → loads s (addrIndexed s base index) 8 x →
      CompletesUpdating (.ldinsuD wd n index base) wd base (addrIndexed s base index) s (fun z => ∀ i : Nat, i < 2 →
        z.extractLsb' (64 * i) 64 = if i = n then x else (readWr s wd).extractLsb' (64 * i) 64))

/-- LDINSS.W and LDINSSU.W: word `n` becomes what memory holds at the sparse address of `n`; LDINSSU.W updates the base
(R245, R246, R252, R253). -/
def Obligations.LoadSparse : Prop :=
  ∀ (s : State) (wd : VReg) (n : Nat) (index base : GReg) (x : BitVec 32), executes s = true → n < 4 →
    (loads s (addrSparse s base index n) 4 x →
      CompletesWriting (.ldinssW wd n index base) wd s (fun z => ∀ i : Nat, i < 4 →
        z.extractLsb' (32 * i) 32 = if i = n then x else (readWr s wd).extractLsb' (32 * i) 32))
    ∧ (loads s (addrSparseByte s base index n) 4 x →
      CompletesUpdating (.ldinssuW wd n index base) wd base (addrSparseByte s base index n) s (fun z => ∀ i : Nat, i < 4 →
        z.extractLsb' (32 * i) 32 = if i = n then x else (readWr s wd).extractLsb' (32 * i) 32))

/-- LDINSSU2.W: word `n mod 4` becomes what memory holds at the nibble address of `n`, and the base is updated (R245,
R246, R254). -/
def Obligations.LoadSparseNibble : Prop :=
  ∀ (s : State) (wd : VReg) (n : Nat) (index base : GReg) (x : BitVec 32), executes s = true → n < 8 →
    loads s (addrSparseNibble s base index n) 4 x →
      CompletesUpdating (.ldinssu2W wd n index base) wd base (addrSparseNibble s base index n) s
        (fun z => ∀ i : Nat, i < 4 →
          z.extractLsb' (32 * i) 32 = if i = n % 4 then x else (readWr s wd).extractLsb' (32 * i) 32)

/-- STEXT.W, STEXT.D: memory at `GPR[base] + GPR[index]` reads as element `n`, every other byte and all other state is
kept (R74, R244, R255, R256). -/
def Obligations.StoreExtract : Prop :=
  ∀ (s : State) (wd : VReg) (n : Nat) (index base : GReg), executes s = true →
    (n < 4 → storesTo s (addrIndexed s base index) 4 →
      ∃ t, exec (.stextW wd n index base) s = .next t ∧ WroteOnly .memory s t
        ∧ SameMemoryOutside (addrIndexed s base index) 4 s t
        ∧ memRead t.mem s.params.endian (addrIndexed s base index) 4 = some ((readWr s wd).extractLsb' (32 * n) 32))
    ∧ (n < 2 → storesTo s (addrIndexed s base index) 8 →
      ∃ t, exec (.stextD wd n index base) s = .next t ∧ WroteOnly .memory s t
        ∧ SameMemoryOutside (addrIndexed s base index) 8 s t
        ∧ memRead t.mem s.params.endian (addrIndexed s base index) 8 = some ((readWr s wd).extractLsb' (64 * n) 64))

/-- STEXTU.W, STEXTU.D: memory at `GPR[base]` plus the access size reads as element `n`, and the base receives that
address (R74, R245, R257, R258). -/
def Obligations.StoreExtractUpdate : Prop :=
  ∀ (s : State) (wd : VReg) (n : Nat) (base : GReg), executes s = true →
    (n < 4 → storesTo s (addrNext s base 4) 4 →
      ∃ t, exec (.stextuW wd n base) s = .next t ∧ WroteOnly (.memoryAndBase base) s t
        ∧ SameMemoryOutside (addrNext s base 4) 4 s t ∧ BaseUpdated base (addrNext s base 4) t
        ∧ memRead t.mem s.params.endian (addrNext s base 4) 4 = some ((readWr s wd).extractLsb' (32 * n) 32))
    ∧ (n < 2 → storesTo s (addrNext s base 8) 8 →
      ∃ t, exec (.stextuD wd n base) s = .next t ∧ WroteOnly (.memoryAndBase base) s t
        ∧ SameMemoryOutside (addrNext s base 8) 8 s t ∧ BaseUpdated base (addrNext s base 8) t
        ∧ memRead t.mem s.params.endian (addrNext s base 8) 8 = some ((readWr s wd).extractLsb' (64 * n) 64))

/-- The addresses of R241 (indexed, sparse by R246 and R247, and `GPR[base]` plus 4 or 8) and the next pc of R36, as
numbers modulo 2^GPRLEN. -/
def Obligations.EffectiveAddresses : Prop :=
  ∀ (s : State) (base index : GReg) (n : Nat),
    (addrIndexed s base index).toNat = ((readGpr s base).toNat + (readGpr s index).toNat) % 2 ^ gprBits s.params.gprLen
    ∧ (n < 4 → ∀ field : Nat, field = (readGpr s index).toNat / 2 ^ (8 * n + 1) % 2 ^ 7 →
      (addrSparse s base index n).toNat =
        ((readGpr s base).toNat + 4 * (if s.params.sparseIncWraps then (field + 1) % 2 ^ 7 else field + 1))
          % 2 ^ gprBits s.params.gprLen)
    ∧ (n < 4 → ∀ field : Nat, field = (readGpr s index).toNat / 2 ^ (8 * n) % 2 ^ 8 →
      (addrSparseByte s base index n).toNat =
        ((readGpr s base).toNat + 4 * (if s.params.sparseIncWraps then (field + 1) % 2 ^ 8 else field + 1))
          % 2 ^ gprBits s.params.gprLen)
    ∧ (n < 8 → ∀ field : Nat, field = (readGpr s index).toNat / 2 ^ (4 * n + 1) % 2 ^ 3 →
      (addrSparseNibble s base index n).toNat = ((readGpr s base).toNat + 4 * field) % 2 ^ gprBits s.params.gprLen)
    ∧ (addrNext s base 4).toNat = ((readGpr s base).toNat + 4) % 2 ^ gprBits s.params.gprLen
    ∧ (addrNext s base 8).toNat = ((readGpr s base).toNat + 8) % 2 ^ gprBits s.params.gprLen
    ∧ (nextPc s).toNat = (s.pc.toNat + 4) % 2 ^ gprBits s.params.gprLen

/-- AdEL: each of the seven loads, its address not a multiple of its size, takes the exception with code 0x04 and the
address, and nothing else changes: not `WR[wd]`, not the base (R242, R354). -/
def Obligations.AddressErrorLoad : Prop :=
  ∀ (s : State) (wd : VReg) (n : Nat) (index base : GReg), executes s = true → statusEXL s = false →
    (∀ (v : Addr) (i : Instr), v.toNat % 4 ≠ 0 →
      (n < 4 ∧ v = addrIndexed s base index ∧ (i = .ldinsW wd n index base ∨ i = .ldinsuW wd n index base)
        ∨ n < 4 ∧ v = addrSparse s base index n ∧ i = .ldinssW wd n index base
        ∨ n < 4 ∧ v = addrSparseByte s base index n ∧ i = .ldinssuW wd n index base
        ∨ n < 8 ∧ v = addrSparseNibble s base index n ∧ i = .ldinssu2W wd n index base) →
      ∃ t, exec i s = .next t ∧ TookException 0x04#5 (some v) s t)
    ∧ (∀ (v : Addr) (i : Instr), v.toNat % 8 ≠ 0 → n < 2 → v = addrIndexed s base index →
      (i = .ldinsD wd n index base ∨ i = .ldinsuD wd n index base) →
      ∃ t, exec i s = .next t ∧ TookException 0x04#5 (some v) s t)

/-- AdES: each of the four stores, its address not a multiple of its size, takes the exception with code 0x05 and the
address; nothing is stored and the base is not updated (R355). -/
def Obligations.AddressErrorStore : Prop :=
  ∀ (s : State) (wd : VReg) (n : Nat) (index base : GReg), executes s = true → statusEXL s = false →
    (∀ (v : Addr) (i : Instr), v.toNat % 4 ≠ 0 → n < 4 →
      (v = addrIndexed s base index ∧ i = .stextW wd n index base
        ∨ v = addrNext s base 4 ∧ i = .stextuW wd n base) →
      ∃ t, exec i s = .next t ∧ TookException 0x05#5 (some v) s t)
    ∧ (∀ (v : Addr) (i : Instr), v.toNat % 8 ≠ 0 → n < 2 →
      (v = addrIndexed s base index ∧ i = .stextD wd n index base
        ∨ v = addrNext s base 8 ∧ i = .stextuD wd n base) →
      ∃ t, exec i s = .next t ∧ TookException 0x05#5 (some v) s t)

/-- Where an aligned access stops, for every load and store: a fault of `translate` (R80), a device region (R79), an
address outside the launch memory (R81), a store into program text (R85), a byte that holds no value (U13). Which stop
applies where two do is the model's (log 19, log 20). -/
def Obligations.AccessStops : Prop :=
  ∀ (s : State) (i : Instr) (acc : Access) (v : Addr) (n : Nat), executes s = true → i.wellFormed = true →
    accessOf s i = some ⟨acc, v, n⟩ → v.toNat % n = 0 →
    (translate s acc v = none → exec i s = .fault .translation)
    ∧ ((translate s acc v).isSome = true →
      ((∃ a ∈ span v n, inRegion s .device a = true) → exec i s = .refused .deviceRegion)
      ∧ ((∀ a ∈ span v n, inRegion s .device a = false) → (∃ a ∈ span v n, inRegion s .memory a = false) →
        exec i s = .fault .outsideLaunchMemory)
      ∧ ((∀ a ∈ span v n, inRegion s .device a = false) → (∀ a ∈ span v n, inRegion s .memory a = true) →
        (acc = .store → (∃ a ∈ span v n, inText s a = true) → exec i s = .refused .storeIntoText)
        ∧ (acc = .load → (∃ a ∈ span v n, memGet s.mem a.toNat = none) → exec i s = .fault .unwrittenByte)))

/-! ## Exceptions -/

/-- Every instruction raises Reserved Instruction if Config3.MSAP is 0, or Status.CU1 is 1 and Status.FR is 0; CU1 = 0
with MSAP = 1 raises nothing here (R351). -/
def Obligations.ReservedUnit : Prop :=
  ∀ (s : State) (i : Instr),
    (cu2Allows s = true → statusEXL s = false →
      (s.config3.getLsbD 28 = false ∨ s.status.getLsbD 29 = true ∧ s.status.getLsbD 26 = false) →
      ∃ t, exec i s = .next t ∧ TookException 0x0a#5 none s t)
    ∧ (s.config3.getLsbD 28 = true → (s.status.getLsbD 29 = false ∨ s.status.getLsbD 26 = true) → riUnit s = false)

/-- Reserved encodings raise Reserved Instruction before MSAEn is looked at (R124, R352, R356): a fetched word of the
MXA's rows that encodes no instruction, and a term whose index is out of its range. -/
def Obligations.ReservedEncodings : Prop :=
  ∀ s : State, cu2Allows s = true → statusEXL s = false →
    (∀ w : Word, fetches s w → w.extractLsb' 26 6 = 0b010010#6 → w.getLsbD 25 = true →
      (∀ i : Instr, i.wellFormed = true → encode i ≠ w) →
      ∃ t, step s = .next t ∧ TookException 0x0a#5 none s t)
    ∧ (∀ i : Instr, i.wellFormed = false → ∃ t, exec i s = .next t ∧ TookException 0x0a#5 none s t)

/-- Every instruction raises MXA Disabled if Config5.MSAEn is 0, and is refused if MSAIR.WRP is 1 and MSAEn is 1 (R353).
-/
def Obligations.MxaDisabled : Prop :=
  ∀ (s : State) (i : Instr), i.wellFormed = true → cu2Allows s = true → riUnit s = false →
    (s.config5.getLsbD 27 = false → statusEXL s = false →
      ∃ t, exec i s = .next t ∧ TookException 0x15#5 none s t)
    ∧ (s.config5.getLsbD 27 = true → (msair s).getLsbD 16 = true → exec i s = .refused .partitioning)

/-- Outside the launch premise the model refuses: `REQUIRE_CU2` set and Status.CU2 = 0 (R367), and an exception while
Status.EXL = 1 (R363). Both refusals are the model's reading (log 24, log 25), and bit 30 for Status.CU2 and bit 1 for
Status.EXL are the family's places, not the spec's (log 3). -/
def Obligations.PremiseRefusals : Prop :=
  ∀ (s : State) (i : Instr),
    (s.params.requireCU2 = true → s.status.getLsbD 30 = false → exec i s = .refused .cu2Clear)
    ∧ (cu2Allows s = true → s.status.getLsbD 1 = true →
      (riUnit s = true ∨ i.wellFormed = false ∨ msaEn s = false) → exec i s = .refused .trapWhileExl)
    ∧ (∀ a, executes s = true → s.status.getLsbD 1 = true → i.wellFormed = true → accessOf s i = some a →
      a.vaddr.toNat % a.size ≠ 0 → exec i s = .refused .trapWhileExl)

/-- An instruction that answers a next state has completed or has taken Reserved Instruction, MXA Disabled, or, if it is
a load, AdEL, or, if it is a store, AdES, at its own address and only if that is misaligned; there are no others (R56,
R350, R358, R361). A completion writes only what `effectOf` names, a store only the bytes of its access (R74), and moves the pc to
the next word; a trap writes only what R359 names. -/
def Obligations.WhichExceptions : Prop :=
  ∀ (s t : State) (i : Instr), exec i s = .next t →
    (Wrote (effectOf i) s t
      ∧ ∀ a, accessOf s i = some a → a.kind = .store → SameMemoryOutside a.vaddr a.size s t)
    ∨ TookException 0x0a#5 none s t
    ∨ TookException 0x15#5 none s t
    ∨ ∃ a, accessOf s i = some a ∧ a.vaddr.toNat % a.size ≠ 0 ∧
      TookException (match a.kind with | .load => 0x04#5 | .store => 0x05#5) (some a.vaddr) s t

/-- R402 for an instruction that touches no memory: with EXL = 0 and WRP = 0 it completes exactly when MSAP = 1, not
(CU1 = 1 and FR = 0), and MSAEn = 1; else it traps. -/
def Obligations.ExecutesExactlyWhen : Prop :=
  ∀ (s : State) (i : Instr), i.wellFormed = true → accessOf s i = none → cu2Allows s = true → statusEXL s = false →
    s.params.msairWrp = false →
    (s.config3.getLsbD 28 = true ∧ ¬(s.status.getLsbD 29 = true ∧ s.status.getLsbD 26 = false)
        ∧ s.config5.getLsbD 27 = true →
      ∃ t, exec i s = .next t ∧ Wrote (effectOf i) s t)
    ∧ (¬(s.config3.getLsbD 28 = true ∧ ¬(s.status.getLsbD 29 = true ∧ s.status.getLsbD 26 = false)
        ∧ s.config5.getLsbD 27 = true) →
      ∃ t code, exec i s = .next t ∧ TookException code none s t)

/-! ## State -/

/-- MSACSR after a step that ran an instruction: Cause and Flags may differ after FCMUL.W only, every other bit, of the
other fields and of the reserved ones, never (R46, R47). -/
def Obligations.MsacsrKept : Prop :=
  ∀ (s t : State) (i : Instr), exec i s = .next t →
    ((∀ wd ws wt, i ≠ .fcmulW wd ws wt) → t.msacsr = s.msacsr)
    ∧ t.msacsr &&& 0xFFFC0F83#32 = s.msacsr &&& 0xFFFC0F83#32
    ∧ msacsrFS t.msacsr = msacsrFS s.msacsr ∧ msacsrImpl t.msacsr = msacsrImpl s.msacsr
    ∧ msacsrNX t.msacsr = msacsrNX s.msacsr ∧ msacsrEnables t.msacsr = msacsrEnables s.msacsr
    ∧ msacsrRM t.msacsr = msacsrRM s.msacsr

/-- A general register holds the low `GPRLEN` bits of what is written to it (R34); `GPR[0]` reads as zero and a write to
it is discarded; so an update form with base 0 forms its address from 0, and
its base update is lost (R35). -/
def Obligations.GprZero : Prop :=
  ∀ s : State,
    readGpr s 0#5 = 0#64
    ∧ (∀ (v : Addr) (r : GReg), readGpr (writeGpr s 0#5 v) r = readGpr s r)
    ∧ (∀ (v : Addr) (r r' : GReg), r ≠ 0#5 → (readGpr (writeGpr s r v) r').toNat =
      if r' = r then v.toNat % 2 ^ gprBits s.params.gprLen else (readGpr s r').toNat)
    ∧ (∀ (i : Instr) (t : State), (effectOf i).gpr = some 0#5 → exec i s = .next t → ∀ r, readGpr t r = readGpr s r)
    ∧ (∀ (index : GReg) (n : Nat), addrIndexed s 0#5 index = readGpr s index
      ∧ (n = 4 ∨ n = 8 → addrNext s 0#5 n = BitVec.ofNat 64 n))

/-- MSAIR: bits 31:17 read as zero, bit 16 is `MSAIR_WRP`, bits 15:8 `MSAIR_PROCID`, bits 7:0 `MSAIR_VERSION`; no step
changes it (R37). -/
def Obligations.MsairFields : Prop :=
  ∀ s : State,
    (msair s).extractLsb' 17 15 = 0#15 ∧ (msair s).getLsbD 16 = s.params.msairWrp
    ∧ (msair s).extractLsb' 8 8 = s.params.msairProcId ∧ (msair s).extractLsb' 0 8 = s.params.msairVersion
    ∧ ∀ t, step s = .next t → msair t = msair s

/-- No step changes what the launch gives: the enable bits of Config3 and Config5, Status.CU1 and Status.FR, the launch
memory, the text, and the parameters (R7, R49, R50, R51, R85). -/
def Obligations.LaunchKept : Prop :=
  ∀ s t : State, step s = .next t →
    SameLaunch s t ∧ t.config3 = s.config3 ∧ t.config5 = s.config5
    ∧ statusCU1 t = statusCU1 s ∧ statusFR t = statusFR s ∧ statusCU2 t = statusCU2 s

/-! ## Memory -/

/-- `MemRead` and `MemWrite` of 4 and 8 bytes in both byte orders (R73, R74): byte `k` of the value is the byte at
`p + k` (little) or `p + n - 1 - k` (big); a read has a value exactly where every byte has one; a write changes no other
byte. -/
def Obligations.MemoryBytes : Prop :=
  ∀ (m : Memory) (e : Endian) (p : Addr) (n : Nat), (n = 4 ∨ n = 8) → p.toNat % n = 0 →
    (∀ x : BitVec (8 * n), memRead m e p n = some x ↔
      ∀ k : Nat, k < n → memGet m (p.toNat + match e with | .little => k | .big => n - 1 - k)
        = some (x.extractLsb' (8 * k) 8))
    ∧ (∀ (x : BitVec (8 * n)) (k : Nat), k < n →
      memGet (memWrite m e p n x) (p.toNat + match e with | .little => k | .big => n - 1 - k)
        = some (x.extractLsb' (8 * k) 8))
    ∧ (∀ (x : BitVec (8 * n)) (a : Nat), (a < p.toNat ∨ p.toNat + n ≤ a) →
      memGet (memWrite m e p n x) a = memGet m a)

/-- A load after a store of the same size at the same aligned address reads the stored value, and one at another aligned
address reads what it read before (R82). -/
def Obligations.MemoryReadAfterWrite : Prop :=
  ∀ (m : Memory) (e : Endian) (p q : Addr) (n : Nat) (x : BitVec (8 * n)), (n = 4 ∨ n = 8) →
    p.toNat % n = 0 → q.toNat % n = 0 →
    memRead (memWrite m e p n x) e q n = if q = p then some x else memRead m e q n

/-- No step writes a byte of program text (R85), of a device region (R79), or outside the launch memory (R81). -/
def Obligations.OnlyLaunchMemoryWritten : Prop :=
  ∀ (s t : State) (a : Addr), step s = .next t →
    (inText s a = true ∨ inRegion s .device a = true ∨ inRegion s .memory a = false) →
    memGet t.mem a.toNat = memGet s.mem a.toNat

/-! ## Decoding and the step -/

/-- Decoding and encoding agree, all instructions and all operands: a word decodes to an instruction exactly when the
instruction is well formed and the word is its encoding (R102 to R121, R126). -/
def Obligations.DecodeIffEncode : Prop :=
  ∀ (w : Word) (i : Instr), decode w = .instr i ↔ i.wellFormed = true ∧ encode i = w

/-- The verdicts of R126 on every word: outside the MXA by bits 31:26 or by bit 25, an instruction, or reserved; and
format 4R has no reserved word (R124, R125, R126). -/
def Obligations.DecodeVerdicts : Prop :=
  ∀ w : Word,
    (decode w = .outside .notCop2 ↔ w.extractLsb' 26 6 ≠ 0b010010#6)
    ∧ ((∃ c, decode w = .outside (.baseCop2 c)) ↔ w.extractLsb' 26 6 = 0b010010#6 ∧ w.getLsbD 25 = false)
    ∧ (decode w = .reserved ↔ w.extractLsb' 26 6 = 0b010010#6 ∧ w.getLsbD 25 = true
        ∧ ∀ i : Instr, i.wellFormed = true → encode i ≠ w)
    ∧ (w.extractLsb' 21 11 = 0b01001011101#11 → ∃ i, decode w = .instr i)

/-- A few words written out from the spec's encodings decode to their instructions (R154, R171, R186, R231, R232, R254,
R258, R280, R295, R305, R315). -/
def Obligations.SampleWords : Prop :=
  decode 0x4A031046#32 = .instr (.fcmulW 1#5 2#5 3#5)
  ∧ decode 0x4BA31049#32 = .instr (.bmrV 1#5 2#5 3#5 4#5)
  ∧ decode 0x4B5F1078#32 = .instr (.slliV 1#5 2#5 31)
  ∧ decode 0x4BA31048#32 = .instr (.vshfrB 1#5 2#5 3#5 4#5)
  ∧ decode 0x4AC3104F#32 = .instr (.vsldiB 1#5 2#5 3#5 15)
  ∧ decode 0x4AE42865#32 = .instr (.ldinssu2W 1#5 5 5#5 4#5)
  ∧ decode 0x4A812079#32 = .instr (.stextuD 1#5 1 4#5)
  ∧ decode 0x4A80104C#32 = .instr (.moveW 1#5 3 2#5 0)
  ∧ decode 0x4A231041#32 = .instr (.addslH 1#5 2#5 3#5)
  ∧ decode 0x4B481041#32 = .instr (.accsrH 1#5 2#5)
  ∧ decode 0x4A431048#32 = .instr (.satssB 1#5 2#5 3#5)

/-- A step runs the decoded instruction: where the bytes at the pc are a well-formed instruction's word, the step is
`exec` of it on the same state, with nothing around it (R126, R406). -/
def Obligations.StepRunsInstruction : Prop :=
  ∀ (s : State) (i : Instr), i.wellFormed = true → fetches s (encode i) → step s = exec i s

/-- Words outside the MXA are refused by name, neither executed nor trapped: the sixteen cells of the base-architecture
COP2 rows (R122), and every word that is not COP2 (R6). -/
def Obligations.OutsideWordsRefused : Prop :=
  ∀ (s : State) (w : Word), fetches s w →
    (w.extractLsb' 26 6 ≠ 0b010010#6 → step s = .refused (.outsideMxa .notCop2))
    ∧ (w.extractLsb' 26 6 = 0b010010#6 →
      (w.extractLsb' 21 5 = 0b00000#5 → step s = .refused (.outsideMxa (.baseCop2 .mfc2)))
      ∧ (w.extractLsb' 21 5 = 0b00001#5 → step s = .refused (.outsideMxa (.baseCop2 .beta00001)))
      ∧ (w.extractLsb' 21 5 = 0b00010#5 → step s = .refused (.outsideMxa (.baseCop2 .cfc2)))
      ∧ (w.extractLsb' 21 5 = 0b00011#5 → step s = .refused (.outsideMxa (.baseCop2 .mfhc2)))
      ∧ (w.extractLsb' 21 5 = 0b00100#5 → step s = .refused (.outsideMxa (.baseCop2 .mtc2)))
      ∧ (w.extractLsb' 21 5 = 0b00101#5 → step s = .refused (.outsideMxa (.baseCop2 .beta00101)))
      ∧ (w.extractLsb' 21 5 = 0b00110#5 → step s = .refused (.outsideMxa (.baseCop2 .ctc2)))
      ∧ (w.extractLsb' 21 5 = 0b00111#5 → step s = .refused (.outsideMxa (.baseCop2 .mthc2)))
      ∧ (w.extractLsb' 21 5 = 0b01000#5 → step s = .refused (.outsideMxa (.baseCop2 .bc2)))
      ∧ (w.extractLsb' 21 5 = 0b01001#5 → step s = .refused (.outsideMxa (.baseCop2 .bc2eqz)))
      ∧ (w.extractLsb' 21 5 = 0b01010#5 → step s = .refused (.outsideMxa (.baseCop2 .lwc2)))
      ∧ (w.extractLsb' 21 5 = 0b01011#5 → step s = .refused (.outsideMxa (.baseCop2 .swc2)))
      ∧ (w.extractLsb' 21 5 = 0b01100#5 → step s = .refused (.outsideMxa (.baseCop2 .theta01100)))
      ∧ (w.extractLsb' 21 5 = 0b01101#5 → step s = .refused (.outsideMxa (.baseCop2 .bc2nez)))
      ∧ (w.extractLsb' 21 5 = 0b01110#5 → step s = .refused (.outsideMxa (.baseCop2 .ldc2)))
      ∧ (w.extractLsb' 21 5 = 0b01111#5 → step s = .refused (.outsideMxa (.baseCop2 .sdc2))))

/-- The end of a run: an exception has been taken, with the outcome `Trap(code, EPC, BadVAddr if any)`, whatever stands
at the vector (R359, R409 b); the end of the text (R409 a); a misaligned pc (R77), a pc elsewhere outside the text (R409
c) and a delay slot (R404). The step answers no next state, and says why. That the outcome Trap is the step after the
entry is the model's (log 23). -/
def Obligations.RunEnds : Prop :=
  ∀ s : State,
    (∀ (r : State) (code : BitVec 5) (vaddr : Option Addr), TookException code vaddr r s →
      step s = .fault (.runTrap ⟨code, r.pc, vaddr⟩))
    ∧ (∀ trap : Trap, s.trap = some trap → step s = .fault (.runTrap trap))
    ∧ (s.trap = none → s.inDelaySlot = true → step s = .refused .delaySlot)
    ∧ (s.trap = none → s.inDelaySlot = false → s.pc.toNat % 4 ≠ 0 → step s = .refused .misalignedPc)
    ∧ (s.trap = none → s.inDelaySlot = false → s.pc.toNat % 4 = 0 → inText s s.pc = false → s.pc = textEnd s →
      step s = .fault .runDone)
    ∧ (s.trap = none → s.inDelaySlot = false → s.pc.toNat % 4 = 0 → inText s s.pc = false → s.pc ≠ textEnd s →
      step s = .refused .outsideText)

/-- Every step keeps the invariant: memory in its canonical form and inside the address space (R54), MSACSR's reserved
bits 0 (R46), the pc a multiple of 4 of `GPRLEN` bits (R36), the place of `GPR[0]` holding 0 (R35), every general register
of `GPRLEN` bits (R34). -/
def Obligations.InvariantKept : Prop :=
  ∀ s t : State, Inv s → step s = .next t → Inv t

/-- The invariant holds after reset. -/
def Obligations.InvariantAtReset : Prop := Inv State.reset

/-- The values the spec gives at reset (R58): `GPR[0]` is 0, MSAIR bits 31:17 and the reserved bits of MSACSR read as
zero, and MSAIR.WRP is the parameter's 0. -/
def Obligations.ResetValues : Prop :=
  readGpr State.reset 0#5 = 0#64 ∧ (msair State.reset).extractLsb' 16 16 = 0#16
  ∧ State.reset.msacsr.extractLsb' 25 7 = 0#7 ∧ State.reset.msacsr.getLsbD 23 = false
  ∧ State.reset.msacsr.extractLsb' 19 2 = 0#2
end

