-- ==== Sys2Proof/Laws/Decode.lean ====
section
/-! SUPPORT. The opcode table: no word matches two rows, so that a word decodes to a row's instruction exactly when it has
the row's fixed bits (R126). -/

namespace Sys2Proof

/-- Two rows differ in a bit that both fix: "at most one row matches" a word (R126). -/
theorem opcodeRows_disjoint :
    opcodeRows.Pairwise fun a b => a.mask &&& b.mask &&& (a.fixed ^^^ b.fixed) ≠ 0#32 := by
  decide +kernel

/-- Every row fixes bits 31:25 as COP2 and 1 (R100, R101). -/
theorem opcodeRows_cop2 :
    (opcodeRows.all fun r => r.mask &&& 0xFE000000#32 == 0xFE000000#32 && r.fixed &&& 0xFE000000#32 == 0x4A000000#32) = true := by
  decide +kernel

/-- A word cannot have the fixed bits of two rows that differ in a bit both fix. -/
theorem rowMatches_disjoint {w : Word} {a b : Row} (h : a.mask &&& b.mask &&& (a.fixed ^^^ b.fixed) ≠ 0#32)
    (ha : rowMatches w a = true) (hb : rowMatches w b = true) : False := by
  simp only [rowMatches, beq_iff_eq] at ha hb
  apply h
  rw [← ha, ← hb]
  apply BitVec.eq_of_getLsbD_eq
  intro k hk
  simp only [BitVec.getLsbD_and, BitVec.getLsbD_xor, BitVec.getLsbD_zero]
  cases w.getLsbD k <;> cases a.mask.getLsbD k <;> cases b.mask.getLsbD k <;> rfl

/-- In a table of disjoint rows, the search finds any row that matches. -/
theorem find?_of_disjoint {rows : List Row} {w : Word} {r : Row}
    (h : rows.Pairwise fun a b => a.mask &&& b.mask &&& (a.fixed ^^^ b.fixed) ≠ 0#32) (hr : r ∈ rows)
    (hm : rowMatches w r = true) : rows.find? (rowMatches w) = some r := by
  induction rows with
  | nil => cases hr
  | cons a rows ih =>
    have hc := List.pairwise_cons.mp h
    rcases List.mem_cons.mp hr with rfl | hr
    · simp [List.find?, hm]
    · cases ha : rowMatches w a with
      | true => exact (rowMatches_disjoint (hc.1 r hr) ha hm).elim
      | false => simp [List.find?, ha, ih hc.2 hr]

/-- A word with a row's fixed bits has COP2 in bits 31:26 and 1 in bit 25. -/
theorem cop2_of_rowMatches {w : Word} {r : Row} (hr : r ∈ opcodeRows) (hm : rowMatches w r = true) :
    w.extractLsb' 26 6 = 0b010010#6 ∧ w.getLsbD 25 = true := by
  have h := List.all_eq_true.mp opcodeRows_cop2 r hr
  simp only [Bool.and_eq_true, beq_iff_eq] at h
  simp only [rowMatches, beq_iff_eq] at hm
  have hw : w &&& 0xFE000000#32 = 0x4A000000#32 := by
    rw [← h.2, ← hm, BitVec.and_assoc, h.1]
  have hbit : ∀ k, k < 32 → 25 ≤ k → w.getLsbD k = (0x4A000000#32).getLsbD k := by
    intro k hk h25
    have := congrArg (BitVec.getLsbD · k) hw
    simp only [BitVec.getLsbD_and] at this
    rw [← this]
    interval_cases k <;> simp
  refine ⟨?_, by rw [hbit 25 (by omega) (by omega)]; rfl⟩
  apply BitVec.eq_of_getLsbD_eq
  intro k hk
  rw [BitVec.getLsbD_extractLsb', hbit (26 + k) (by omega) (by omega)]
  interval_cases k <;> rfl

/-- A word decodes to what a row builds from it exactly when it has the row's fixed bits (R126). -/
theorem decode_eq_instr_iff_row (w : Word) (i : Instr) :
    decode w = .instr i ↔ ∃ r ∈ opcodeRows, rowMatches w r = true ∧ r.build w = i := by
  constructor
  · intro h
    unfold decode at h
    split at h
    · cases h
    split at h
    · cases h
    split at h
    · next r hr =>
      cases h
      exact ⟨r, List.mem_of_find?_eq_some hr, List.find?_some hr, rfl⟩
    · cases h
  · rintro ⟨r, hr, hm, rfl⟩
    obtain ⟨h1, h2⟩ := cop2_of_rowMatches hr hm
    simp [decode, h1, h2, find?_of_disjoint opcodeRows_disjoint hr hm]

end Sys2Proof
end

