-- ==== Sys2Proof/Laws/Memory.lean ====
section
/-! SUPPORT. Memory: a read after a write, and the canonical form that every memory operation keeps. -/

namespace Sys2Proof.Machine

/-! ## Bytes -/

theorem memGet_memPut_self (m : Memory) (a : Nat) (b : Byte) : memGet (memPut m a b) a = some b := by
  induction m with
  | nil => simp [memPut, memGet]
  | cons c m ih =>
    unfold memPut
    split
    · simp [memGet]
    · split
      · simp [memGet]
      · next h => simp [memGet, h, ih]

theorem memGet_memPut_ne (m : Memory) {a a' : Nat} (b : Byte) (h : a' ≠ a) : memGet (memPut m a b) a' = memGet m a' := by
  induction m with
  | nil => simp [memPut, memGet, h]
  | cons c m ih =>
    unfold memPut
    split
    · simp [memGet, h]
    · split
      · next he => subst he; simp [memGet, h]
      · simp [memGet, ih]

/-! ## The canonical form -/

/-- An entry after a store is the stored one or an old one. -/
theorem mem_memPut {m : Memory} {a : Nat} {b : Byte} {c : Host.Cell} (h : c ∈ memPut m a b) : c = (a, b) ∨ c ∈ m := by
  induction m with
  | nil => simpa [memPut] using h
  | cons d m ih =>
    unfold memPut at h
    split at h
    · simpa using h
    · split at h
      · rcases List.mem_cons.mp h with h | h
        · exact .inl h
        · exact .inr (List.mem_cons_of_mem _ h)
      · rcases List.mem_cons.mp h with h | h
        · exact .inr (h ▸ List.mem_cons_self)
        · exact (ih h).imp_right (List.mem_cons_of_mem _)

theorem memPut_pairwise {m : Memory} (a : Nat) (b : Byte) (h : m.Pairwise fun x y => x.1 < y.1) :
    (memPut m a b).Pairwise fun x y => x.1 < y.1 := by
  induction m with
  | nil => simp [memPut]
  | cons c m ih =>
    have hc := List.pairwise_cons.mp h
    unfold memPut
    split
    · next hlt =>
      refine List.pairwise_cons.mpr ⟨fun d hd => ?_, h⟩
      rcases List.mem_cons.mp hd with rfl | hd
      · exact hlt
      · exact Nat.lt_trans hlt (hc.1 d hd)
    · split
      · next _ heq => exact List.pairwise_cons.mpr ⟨fun d hd => by simpa [heq] using hc.1 d hd, hc.2⟩
      · next hge hne =>
        refine List.pairwise_cons.mpr ⟨fun d hd => ?_, ih hc.2⟩
        rcases mem_memPut hd with rfl | hd
        · show c.1 < a
          omega
        · exact hc.1 d hd

theorem memPut_wf {m : Memory} {a : Nat} (b : Byte) (ha : a < 2 ^ 64) (h : m.wf) : (memPut m a b).wf := by
  refine ⟨memPut_pairwise a b h.1, fun c hc => ?_⟩
  rcases mem_memPut hc with rfl | hc
  · exact ha
  · exact h.2 c hc

theorem memPutBytes_wf {m : Memory} (p : Addr) (bs : List Byte) (h : m.wf) : (memPutBytes m p bs).wf := by
  induction bs generalizing m p with
  | nil => exact h
  | cons b bs ih => exact ih (p + 1#64) (memPut_wf b p.isLt h)

theorem memWrite_wf {m : Memory} (e : Endian) (p : Addr) (n : Nat) (v : BitVec (8 * n)) (h : m.wf) :
    (memWrite m e p n v).wf := memPutBytes_wf p _ h

theorem reset_mem_wf : State.reset.mem.wf := by decide

/-! ## Where a store lands -/

theorem length_bytesOfNatLE (n v : Nat) : (bytesOfNatLE n v).length = n := by
  induction n generalizing v with
  | zero => rfl
  | succ n ih => simp [bytesOfNatLE, ih]

@[simp] theorem length_bytesOfNat (e : Endian) (n v : Nat) : (bytesOfNat e n v).length = n := by
  cases e <;> simp [bytesOfNat, length_bytesOfNatLE]

/-- A store of bytes leaves every address outside its span as it was. -/
theorem memGet_memPutBytes_ne (m : Memory) (p : Addr) (bs : List Byte) (a : Nat)
    (h : ∀ q ∈ span p bs.length, a ≠ q.toNat) : memGet (memPutBytes m p bs) a = memGet m a := by
  induction bs generalizing m p with
  | nil => rfl
  | cons b bs ih =>
    have h' : ∀ q ∈ p :: span (p + 1#64) bs.length, a ≠ q.toNat := h
    rw [memPutBytes, ih (memPut m p.toNat b) (p + 1#64) (fun q hq => h' q (List.mem_cons_of_mem _ hq)),
      memGet_memPut_ne _ _ (h' p List.mem_cons_self)]

/-- An entry after a store of bytes stands in its span or is an old one. -/
theorem mem_memPutBytes {m : Memory} {p : Addr} {bs : List Byte} {c : Host.Cell} (h : c ∈ memPutBytes m p bs) :
    (∃ q ∈ span p bs.length, c.1 = q.toNat) ∨ c ∈ m := by
  induction bs generalizing m p with
  | nil => exact .inr h
  | cons b bs ih =>
    rcases ih (m := memPut m p.toNat b) h with ⟨q, hq, hc⟩ | h
    · exact .inl ⟨q, List.mem_cons_of_mem _ hq, hc⟩
    · exact (mem_memPut h).imp_left fun e => ⟨p, List.mem_cons_self, by rw [e]⟩

/-- The addresses of a span that does not reach the top of the 64 bits. -/
theorem mem_span_bounds {p q : Addr} {n : Nat} (h : q ∈ span p n) (hp : p.toNat + n ≤ 2 ^ 64) :
    p.toNat ≤ q.toNat ∧ q.toNat < p.toNat + n := by
  induction n generalizing p with
  | zero => simp [span] at h
  | succ n ih =>
    rcases List.mem_cons.mp h with rfl | h
    · omega
    · cases n with
      | zero => simp [span] at h
      | succ n =>
        have hn : (p + 1#64).toNat = p.toNat + 1 := by simp; omega
        have := ih h (by omega)
        omega

/-- `MemWrite` "changes no other byte" (R74). -/
theorem memGet_memWrite_ne (m : Memory) (e : Endian) (p : Addr) (n : Nat) (v : BitVec (8 * n)) (a : Nat)
    (h : ∀ q ∈ span p n, a ≠ q.toNat) : memGet (memWrite m e p n v) a = memGet m a :=
  memGet_memPutBytes_ne m p _ a (by simpa using h)

end Sys2Proof.Machine
end

