-- ==== Sys2Proof/Laws/State.lean ====
section
/-! SUPPORT. What each update of the state does to each field, and reads of registers after writes. -/

namespace Sys2Proof.Machine

variable (s : State)

@[simp] theorem writeWr_wr (r : VReg) (v : Vec) : (writeWr s r v).wr = s.wr.set r.toNat v := rfl
@[simp] theorem writeWr_gpr (r : VReg) (v : Vec) : (writeWr s r v).gpr = s.gpr := rfl
@[simp] theorem writeWr_pc (r : VReg) (v : Vec) : (writeWr s r v).pc = s.pc := rfl
@[simp] theorem writeWr_msacsr (r : VReg) (v : Vec) : (writeWr s r v).msacsr = s.msacsr := rfl
@[simp] theorem writeWr_config3 (r : VReg) (v : Vec) : (writeWr s r v).config3 = s.config3 := rfl
@[simp] theorem writeWr_config5 (r : VReg) (v : Vec) : (writeWr s r v).config5 = s.config5 := rfl
@[simp] theorem writeWr_status (r : VReg) (v : Vec) : (writeWr s r v).status = s.status := rfl
@[simp] theorem writeWr_cause (r : VReg) (v : Vec) : (writeWr s r v).cause = s.cause := rfl
@[simp] theorem writeWr_epc (r : VReg) (v : Vec) : (writeWr s r v).epc = s.epc := rfl
@[simp] theorem writeWr_badVAddr (r : VReg) (v : Vec) : (writeWr s r v).badVAddr = s.badVAddr := rfl
@[simp] theorem writeWr_mem (r : VReg) (v : Vec) : (writeWr s r v).mem = s.mem := rfl
@[simp] theorem writeWr_launchMemory (r : VReg) (v : Vec) : (writeWr s r v).launchMemory = s.launchMemory := rfl
@[simp] theorem writeWr_text (r : VReg) (v : Vec) : (writeWr s r v).text = s.text := rfl
@[simp] theorem writeWr_inDelaySlot (r : VReg) (v : Vec) : (writeWr s r v).inDelaySlot = s.inDelaySlot := rfl
@[simp] theorem writeWr_trap (r : VReg) (v : Vec) : (writeWr s r v).trap = s.trap := rfl
@[simp] theorem writeWr_draws (r : VReg) (v : Vec) : (writeWr s r v).draws = s.draws := rfl
@[simp] theorem writeWr_params (r : VReg) (v : Vec) : (writeWr s r v).params = s.params := rfl

@[simp] theorem writeGpr_wr (r : GReg) (v : Addr) : (writeGpr s r v).wr = s.wr := rfl
@[simp] theorem writeGpr_gpr (r : GReg) (v : Addr) : (writeGpr s r v).gpr = if r = 0#5 then s.gpr else s.gpr.set r.toNat (wrapAddr s v) := rfl
@[simp] theorem writeGpr_pc (r : GReg) (v : Addr) : (writeGpr s r v).pc = s.pc := rfl
@[simp] theorem writeGpr_msacsr (r : GReg) (v : Addr) : (writeGpr s r v).msacsr = s.msacsr := rfl
@[simp] theorem writeGpr_config3 (r : GReg) (v : Addr) : (writeGpr s r v).config3 = s.config3 := rfl
@[simp] theorem writeGpr_config5 (r : GReg) (v : Addr) : (writeGpr s r v).config5 = s.config5 := rfl
@[simp] theorem writeGpr_status (r : GReg) (v : Addr) : (writeGpr s r v).status = s.status := rfl
@[simp] theorem writeGpr_cause (r : GReg) (v : Addr) : (writeGpr s r v).cause = s.cause := rfl
@[simp] theorem writeGpr_epc (r : GReg) (v : Addr) : (writeGpr s r v).epc = s.epc := rfl
@[simp] theorem writeGpr_badVAddr (r : GReg) (v : Addr) : (writeGpr s r v).badVAddr = s.badVAddr := rfl
@[simp] theorem writeGpr_mem (r : GReg) (v : Addr) : (writeGpr s r v).mem = s.mem := rfl
@[simp] theorem writeGpr_launchMemory (r : GReg) (v : Addr) : (writeGpr s r v).launchMemory = s.launchMemory := rfl
@[simp] theorem writeGpr_text (r : GReg) (v : Addr) : (writeGpr s r v).text = s.text := rfl
@[simp] theorem writeGpr_inDelaySlot (r : GReg) (v : Addr) : (writeGpr s r v).inDelaySlot = s.inDelaySlot := rfl
@[simp] theorem writeGpr_trap (r : GReg) (v : Addr) : (writeGpr s r v).trap = s.trap := rfl
@[simp] theorem writeGpr_draws (r : GReg) (v : Addr) : (writeGpr s r v).draws = s.draws := rfl
@[simp] theorem writeGpr_params (r : GReg) (v : Addr) : (writeGpr s r v).params = s.params := rfl

@[simp] theorem writeElem_wr (w : Nat) (r : VReg) (n : Nat) (x : BitVec w) : (writeElem s w r n x).wr = s.wr.set r.toNat (setElem w (readWr s r) n x) := rfl
@[simp] theorem writeElem_gpr (w : Nat) (r : VReg) (n : Nat) (x : BitVec w) : (writeElem s w r n x).gpr = s.gpr := rfl
@[simp] theorem writeElem_pc (w : Nat) (r : VReg) (n : Nat) (x : BitVec w) : (writeElem s w r n x).pc = s.pc := rfl
@[simp] theorem writeElem_msacsr (w : Nat) (r : VReg) (n : Nat) (x : BitVec w) : (writeElem s w r n x).msacsr = s.msacsr := rfl
@[simp] theorem writeElem_config3 (w : Nat) (r : VReg) (n : Nat) (x : BitVec w) : (writeElem s w r n x).config3 = s.config3 := rfl
@[simp] theorem writeElem_config5 (w : Nat) (r : VReg) (n : Nat) (x : BitVec w) : (writeElem s w r n x).config5 = s.config5 := rfl
@[simp] theorem writeElem_status (w : Nat) (r : VReg) (n : Nat) (x : BitVec w) : (writeElem s w r n x).status = s.status := rfl
@[simp] theorem writeElem_cause (w : Nat) (r : VReg) (n : Nat) (x : BitVec w) : (writeElem s w r n x).cause = s.cause := rfl
@[simp] theorem writeElem_epc (w : Nat) (r : VReg) (n : Nat) (x : BitVec w) : (writeElem s w r n x).epc = s.epc := rfl
@[simp] theorem writeElem_badVAddr (w : Nat) (r : VReg) (n : Nat) (x : BitVec w) : (writeElem s w r n x).badVAddr = s.badVAddr := rfl
@[simp] theorem writeElem_mem (w : Nat) (r : VReg) (n : Nat) (x : BitVec w) : (writeElem s w r n x).mem = s.mem := rfl
@[simp] theorem writeElem_launchMemory (w : Nat) (r : VReg) (n : Nat) (x : BitVec w) : (writeElem s w r n x).launchMemory = s.launchMemory := rfl
@[simp] theorem writeElem_text (w : Nat) (r : VReg) (n : Nat) (x : BitVec w) : (writeElem s w r n x).text = s.text := rfl
@[simp] theorem writeElem_inDelaySlot (w : Nat) (r : VReg) (n : Nat) (x : BitVec w) : (writeElem s w r n x).inDelaySlot = s.inDelaySlot := rfl
@[simp] theorem writeElem_trap (w : Nat) (r : VReg) (n : Nat) (x : BitVec w) : (writeElem s w r n x).trap = s.trap := rfl
@[simp] theorem writeElem_draws (w : Nat) (r : VReg) (n : Nat) (x : BitVec w) : (writeElem s w r n x).draws = s.draws := rfl
@[simp] theorem writeElem_params (w : Nat) (r : VReg) (n : Nat) (x : BitVec w) : (writeElem s w r n x).params = s.params := rfl

@[simp] theorem drawFpStatus_wr : (drawFpStatus s).wr = s.wr := rfl
@[simp] theorem drawFpStatus_gpr : (drawFpStatus s).gpr = s.gpr := rfl
@[simp] theorem drawFpStatus_pc : (drawFpStatus s).pc = s.pc := rfl
@[simp] theorem drawFpStatus_msacsr : (drawFpStatus s).msacsr = msacsrWithCauseFlags s.msacsr (Config.freeFpCause s.draws) (Config.freeFpFlags s.draws) := rfl
@[simp] theorem drawFpStatus_config3 : (drawFpStatus s).config3 = s.config3 := rfl
@[simp] theorem drawFpStatus_config5 : (drawFpStatus s).config5 = s.config5 := rfl
@[simp] theorem drawFpStatus_status : (drawFpStatus s).status = s.status := rfl
@[simp] theorem drawFpStatus_cause : (drawFpStatus s).cause = s.cause := rfl
@[simp] theorem drawFpStatus_epc : (drawFpStatus s).epc = s.epc := rfl
@[simp] theorem drawFpStatus_badVAddr : (drawFpStatus s).badVAddr = s.badVAddr := rfl
@[simp] theorem drawFpStatus_mem : (drawFpStatus s).mem = s.mem := rfl
@[simp] theorem drawFpStatus_launchMemory : (drawFpStatus s).launchMemory = s.launchMemory := rfl
@[simp] theorem drawFpStatus_text : (drawFpStatus s).text = s.text := rfl
@[simp] theorem drawFpStatus_inDelaySlot : (drawFpStatus s).inDelaySlot = s.inDelaySlot := rfl
@[simp] theorem drawFpStatus_trap : (drawFpStatus s).trap = s.trap := rfl
@[simp] theorem drawFpStatus_draws : (drawFpStatus s).draws = s.draws + 1 := rfl
@[simp] theorem drawFpStatus_params : (drawFpStatus s).params = s.params := rfl

@[simp] theorem enterException_wr (e : Exc) : (enterException s e).wr = s.wr := rfl
@[simp] theorem enterException_gpr (e : Exc) : (enterException s e).gpr = s.gpr := rfl
@[simp] theorem enterException_pc (e : Exc) : (enterException s e).pc = s.params.genExcVector := rfl
@[simp] theorem enterException_msacsr (e : Exc) : (enterException s e).msacsr = s.msacsr := rfl
@[simp] theorem enterException_config3 (e : Exc) : (enterException s e).config3 = s.config3 := rfl
@[simp] theorem enterException_config5 (e : Exc) : (enterException s e).config5 = s.config5 := rfl
@[simp] theorem enterException_status (e : Exc) : (enterException s e).status = s.status ||| 0x00000002#32 := rfl
@[simp] theorem enterException_cause (e : Exc) : (enterException s e).cause = causeWith s.cause (excCode e) := rfl
@[simp] theorem enterException_epc (e : Exc) : (enterException s e).epc = s.pc := rfl
@[simp] theorem enterException_badVAddr (e : Exc) : (enterException s e).badVAddr = excBadVAddr s e := rfl
@[simp] theorem enterException_mem (e : Exc) : (enterException s e).mem = s.mem := rfl
@[simp] theorem enterException_launchMemory (e : Exc) : (enterException s e).launchMemory = s.launchMemory := rfl
@[simp] theorem enterException_text (e : Exc) : (enterException s e).text = s.text := rfl
@[simp] theorem enterException_inDelaySlot (e : Exc) : (enterException s e).inDelaySlot = s.inDelaySlot := rfl
@[simp] theorem enterException_trap (e : Exc) : (enterException s e).trap = some ⟨excCode e, s.pc, excVAddr e⟩ := rfl
@[simp] theorem enterException_draws (e : Exc) : (enterException s e).draws = s.draws := rfl
@[simp] theorem enterException_params (e : Exc) : (enterException s e).params = s.params := rfl

/-! ## Reads after writes -/

@[simp] theorem readWr_writeWr_self (r : VReg) (v : Vec) : readWr (writeWr s r v) r = v := by
  simp [readWr]

theorem readWr_writeWr_ne {r q : VReg} (v : Vec) (h : q ≠ r) : readWr (writeWr s r v) q = readWr s q := by
  have h' : r.toNat ≠ q.toNat := fun e => h (BitVec.eq_of_toNat_eq e.symm)
  simp [readWr, h']

@[simp] theorem readGpr_writeWr (r : VReg) (v : Vec) (q : GReg) : readGpr (writeWr s r v) q = readGpr s q := rfl

@[simp] theorem readWr_writeGpr (r : GReg) (v : Addr) (q : VReg) : readWr (writeGpr s r v) q = readWr s q := rfl

@[simp] theorem readWr_drawFpStatus (q : VReg) : readWr (drawFpStatus s) q = readWr s q := rfl

@[simp] theorem readGpr_drawFpStatus (q : GReg) : readGpr (drawFpStatus s) q = readGpr s q := rfl

@[simp] theorem readWr_enterException (e : Exc) (q : VReg) : readWr (enterException s e) q = readWr s q := rfl

@[simp] theorem readGpr_enterException (e : Exc) (q : GReg) : readGpr (enterException s e) q = readGpr s q := rfl

/-- A value modulo `2^GPRLEN`, as a number (R70). -/
@[simp] theorem toNat_wrap (g : GprLen) (v : Addr) : (wrap g v).toNat = v.toNat % 2 ^ gprBits g := by
  cases g <;> simp [wrap, gprBits] <;> omega

@[simp] theorem toNat_wrapAddr (v : Addr) : (wrapAddr s v).toNat = v.toNat % 2 ^ gprBits s.params.gprLen :=
  toNat_wrap _ v

@[simp] theorem wrap_wrap (g : GprLen) (v : Addr) : wrap g (wrap g v) = wrap g v := by
  cases g <;> simp [wrap]

@[simp] theorem wrapAddr_wrapAddr (v : Addr) : wrapAddr s (wrapAddr s v) = wrapAddr s v := wrap_wrap _ v

@[simp] theorem wrapAddr_zero : wrapAddr s 0#64 = 0#64 := by
  unfold wrapAddr
  cases s.params.gprLen <;> rfl

/-- A general register reads as a `GPRLEN`-bit string in every state (R34). -/
@[simp] theorem wrapAddr_readGpr (r : GReg) : wrapAddr s (readGpr s r) = readGpr s r := by
  unfold readGpr
  split <;> simp

/-- `GPR[0]` reads as zero in every state (R35). -/
@[simp] theorem readGpr_zero : readGpr s 0#5 = 0#64 := rfl

theorem readGpr_writeGpr_self {r : GReg} (v : Addr) (h : r ≠ 0#5) : readGpr (writeGpr s r v) r = wrapAddr s v := by
  simp [readGpr, wrapAddr, h]

theorem readGpr_writeGpr_ne {r q : GReg} (v : Addr) (h : q ≠ r) : readGpr (writeGpr s r v) q = readGpr s q := by
  have h' : r.toNat ≠ q.toNat := fun e => h (BitVec.eq_of_toNat_eq e.symm)
  by_cases hr : r = 0#5
  · simp [readGpr, wrapAddr, hr]
  · simp [readGpr, wrapAddr, hr, h']

/-- The addresses of R241 and R246 and the next pc are `GPRLEN`-bit strings. -/
@[simp] theorem wrapAddr_addrIndexed (base index : GReg) :
    wrapAddr s (addrIndexed s base index) = addrIndexed s base index := wrapAddr_wrapAddr s _

@[simp] theorem wrapAddr_addrSparse (base index : GReg) (n : Nat) :
    wrapAddr s (addrSparse s base index n) = addrSparse s base index n := wrapAddr_wrapAddr s _

@[simp] theorem wrapAddr_addrSparseByte (base index : GReg) (n : Nat) :
    wrapAddr s (addrSparseByte s base index n) = addrSparseByte s base index n := wrapAddr_wrapAddr s _

@[simp] theorem wrapAddr_addrSparseNibble (base index : GReg) (n : Nat) :
    wrapAddr s (addrSparseNibble s base index n) = addrSparseNibble s base index n := wrapAddr_wrapAddr s _

@[simp] theorem wrapAddr_addrNext (base : GReg) (size : Nat) :
    wrapAddr s (addrNext s base size) = addrNext s base size := wrapAddr_wrapAddr s _

@[simp] theorem wrapAddr_nextPc : wrapAddr s (nextPc s) = nextPc s := wrapAddr_wrapAddr s _

end Sys2Proof.Machine
end

