-- ==== Sys2Proof/Laws/Ops.lean ====
section
/-! SUPPORT. Said once for each shared operation: everything it can do. -/

namespace Sys2Proof.Machine

variable {s t : State}

/-- An exception is entered, and only with Status.EXL = 0 (R359, R363). -/
theorem raiseExc_next {e : Exc} (h : raiseExc s e = .next t) : statusEXL s = false ∧ t = enterException s e := by
  unfold raiseExc at h
  split at h
  · cases h
  · next hx => exact ⟨by simpa using hx, (Host.Outcome.next.inj h).symm⟩

theorem raiseExc_of_exl_clear (e : Exc) (h : statusEXL s = false) : raiseExc s e = .next (enterException s e) := by
  simp [raiseExc, h]

/-- The prologue answers a next state by Reserved Instruction, by MXA Disabled, or by the instruction's own body where
the state executes MXA instructions (R356). -/
theorem mxa_next {valid : Bool} {body : Result} (h : mxa valid s body = .next t) :
    ((riUnit s = true ∨ valid = false) ∧ statusEXL s = false ∧ t = enterException s .reservedInstruction)
      ∨ (riUnit s = false ∧ valid = true ∧ msaEn s = false ∧ statusEXL s = false ∧ t = enterException s .mxaDisabled)
      ∨ (executes s = true ∧ valid = true ∧ body = .next t) := by
  unfold mxa at h
  split at h
  · cases h
  next h0 =>
  split at h
  · next h1 => exact .inl ⟨.inl h1, raiseExc_next h⟩
  next h1 =>
  split at h
  · next h2 => exact .inl ⟨.inr (by simpa using h2), raiseExc_next h⟩
  next h2 =>
  split at h
  · next h3 => exact .inr (.inl ⟨by simpa using h1, by simpa using h2, by simpa using h3, raiseExc_next h⟩)
  next h3 =>
  split at h
  · cases h
  next h4 =>
  refine .inr (.inr ⟨?_, by simpa using h2, h⟩)
  cases hr : s.params.requireCU2 <;> cases hc : statusCU2 s <;> simp_all [executes, cu2Allows]

/-- Where the state executes MXA instructions, the prologue lets a valid encoding run (R356, R402). -/
theorem mxa_of_executes {body : Result} (h : executes s = true) : mxa true s body = body := by
  simp only [executes, cu2Allows, Bool.and_eq_true, Bool.not_eq_true', Bool.or_eq_true] at h
  obtain ⟨⟨⟨h1, h2⟩, h3⟩, h4⟩ := h
  have h0 : (s.params.requireCU2 && !statusCU2 s) = false := by
    rcases h1 with h1 | h1 <;> simp [h1]
  simp [mxa, h0, h2, h3, h4]

/-- An instruction that completes moves the pc to the next word (R18, R36). -/
theorem complete_next (h : complete s = .next t) : t = { s with pc := nextPc s } :=
  (Host.Outcome.next.inj h).symm

/-- An access that the launch allows. -/
theorem checkAccess_next {acc : Access} {p : Addr} {n : Nat} (h : checkAccess s acc p n = .next ()) :
    (∀ a ∈ span p n, inRegion s .device a = false) ∧ (∀ a ∈ span p n, inRegion s .memory a = true)
      ∧ (acc = .store → ∀ a ∈ span p n, inText s a = false) := by
  unfold checkAccess at h
  split at h
  · cases h
  next h1 =>
  split at h
  · cases h
  next h2 =>
  split at h
  · cases h
  next h3 =>
  refine ⟨by simpa using h1, by simpa using h2, ?_⟩
  rintro rfl
  simpa using h3

/-- The conditions of `checkAccess_next` are all that an allowed access needs. -/
theorem checkAccess_of {acc : Access} {p : Addr} {n : Nat} (hd : (span p n).any (inRegion s .device) = false)
    (hm : (span p n).all (inRegion s .memory) = true) (ht : (acc == .store && (span p n).any (inText s)) = false) :
    checkAccess s acc p n = .next () := by
  simp [checkAccess, hd, hm, ht]

/-- A load answers a next state by Address Error on a misaligned address, or by its writes with the value read at that
address (R240). -/
theorem load_next {v : Addr} {n : Nat} {write : BitVec (8 * n) → State} (h : load s v n write = .next t) :
    (aligned v n = false ∧ statusEXL s = false ∧ t = enterException s (.addressErrorLoad v))
      ∨ ∃ x, loads s v n x ∧ t = { write x with pc := nextPc (write x) } := by
  unfold load at h
  split at h
  · next h1 => exact .inl ⟨by simpa using h1, raiseExc_next h⟩
  next h1 =>
  split at h
  · cases h
  next p hp =>
  split at h
  · cases h
  · cases h
  next hc =>
  split at h
  · cases h
  next x hx => exact .inr ⟨x, ⟨by simpa using h1, by simp [hp], hc, hx⟩, complete_next h⟩

/-- A store answers a next state by Address Error on a misaligned address, or by writing the value there and then the
base update (R240). -/
theorem store_next {v : Addr} {n : Nat} {x : BitVec (8 * n)} {update : State → State}
    (h : store s v n x update = .next t) :
    (aligned v n = false ∧ statusEXL s = false ∧ t = enterException s (.addressErrorStore v))
      ∨ ∃ u, storesTo s v n ∧ u = update { s with mem := memWrite s.mem s.params.endian v n x }
          ∧ t = { u with pc := nextPc u } := by
  unfold store at h
  split at h
  · next h1 => exact .inl ⟨by simpa using h1, raiseExc_next h⟩
  next h1 =>
  split at h
  · cases h
  next p hp =>
  split at h
  · cases h
  · cases h
  next hc => exact .inr ⟨_, ⟨by simpa using h1, by simp [hp], hc⟩, rfl, complete_next h⟩

/-- What the fetch answers are the four bytes at an aligned pc inside the text, in a run that no exception has ended (R77,
R409). -/
theorem fetch_next {bs : List Byte} (h : fetch s = .next bs) :
    s.trap = none ∧ s.inDelaySlot = false ∧ aligned s.pc 4 = true ∧ inText s s.pc = true ∧ memBytes s.mem s.pc 4 = some bs := by
  unfold fetch at h
  split at h
  · cases h
  next h0 =>
  split at h
  · cases h
  next h1 =>
  split at h
  · cases h
  next h2 =>
  split at h
  · next h3 =>
    split at h
    · cases h
    next hb => exact ⟨h0, by simpa using h1, by simpa using h2, h3, by cases h; exact hb⟩
  · split at h <;> cases h

/-- After an exception the run has ended: the step answers its outcome (R359, R409 b). -/
theorem stepWith_of_trap {run : Instr → State → Result} {r : Trap} (h : s.trap = some r) :
    stepWith run s = .fault (.runTrap r) := by
  simp [stepWith, fetch, h]

/-- A step that answers a next state ran an instruction or raised Reserved Instruction on a reserved word (R126). -/
theorem stepWith_next {run : Instr → State → Result} (h : stepWith run s = .next t) :
    ∃ bs, fetch s = .next bs ∧
      ((∃ i, (decodeBytes s.params.endian bs).1 = .instr i ∧ run i s = .next t)
        ∨ ((decodeBytes s.params.endian bs).1 = .reserved ∧ execReserved s = .next t)) := by
  unfold stepWith at h
  split at h
  · cases h
  · cases h
  next bs hf =>
  refine ⟨bs, hf, ?_⟩
  split at h
  · next i hi => exact .inl ⟨i, hi, h⟩
  · next hr => exact .inr ⟨hr, h⟩
  · cases h

end Sys2Proof.Machine
end

