-- ==== Sys2Proof/Laws/Frames.lean ====
section
/-! SUPPORT. What an instruction that completes leaves unchanged, and what entering an exception does, each said once in
the terms of Safety. -/

namespace Sys2Proof.Machine

/-- Every meaning is the enable-check prologue around a body of its own (R356). -/
theorem exec_eq_mxa (i : Instr) (s : State) : ∃ body, exec i s = mxa i.wellFormed s body := by
  cases i <;> exact ⟨_, rfl⟩

/-! ## Completions -/

/-- A write of one vector register and the step to the next word. -/
theorem writeWr_wroteOnly (s : State) (wd : VReg) (v : Vec) :
    WroteOnly (.vector wd) s { writeWr s wd v with pc := nextPc s } where
  wrs r h := readWr_writeWr_ne s v (fun e : r = wd => h (by simp [Effect.wr, e]))
  gprs _ _ := rfl
  memory _ _ := rfl
  msacsr _ := rfl
  msacsrRest := rfl
  cp0 := ⟨rfl, rfl, rfl, rfl, rfl, rfl⟩
  launch := ⟨rfl, rfl, rfl, rfl⟩
  pc := rfl
  trap := rfl
  draws := rfl

/-- A write of one vector register and the base register, and the step to the next word. -/
theorem writeWr_writeGpr_wroteOnly (s : State) (wd : VReg) (v : Vec) (base : GReg) (b : Addr) :
    WroteOnly (.vectorAndBase wd base) s { writeGpr (writeWr s wd v) base b with pc := nextPc s } where
  wrs r h := readWr_writeWr_ne s v (fun e : r = wd => h (by simp [Effect.wr, e]))
  gprs r h := readGpr_writeGpr_ne (writeWr s wd v) b (fun e : r = base => h (by simp [Effect.gpr, e]))
  memory _ _ := rfl
  msacsr _ := rfl
  msacsrRest := rfl
  cp0 := ⟨rfl, rfl, rfl, rfl, rfl, rfl⟩
  launch := ⟨rfl, rfl, rfl, rfl⟩
  pc := rfl
  trap := rfl
  draws := rfl

/-- A write of memory and the step to the next word. -/
theorem mem_wroteOnly (s : State) (m : Memory) :
    WroteOnly .memory s { ({ s with mem := m } : State) with pc := nextPc s } where
  wrs _ _ := rfl
  gprs _ _ := rfl
  memory h := nomatch h
  msacsr _ := rfl
  msacsrRest := rfl
  cp0 := ⟨rfl, rfl, rfl, rfl, rfl, rfl⟩
  launch := ⟨rfl, rfl, rfl, rfl⟩
  pc := rfl
  trap := rfl
  draws := rfl

/-- A write of memory and the base register, and the step to the next word. -/
theorem mem_writeGpr_wroteOnly (s : State) (m : Memory) (base : GReg) (b : Addr) :
    WroteOnly (.memoryAndBase base) s { writeGpr ({ s with mem := m } : State) base b with pc := nextPc s } where
  wrs _ _ := rfl
  gprs r h := readGpr_writeGpr_ne { s with mem := m } b (fun e : r = base => h (by simp [Effect.gpr, e]))
  memory h := nomatch h
  msacsr _ := rfl
  msacsrRest := rfl
  cp0 := ⟨rfl, rfl, rfl, rfl, rfl, rfl⟩
  launch := ⟨rfl, rfl, rfl, rfl⟩
  pc := rfl
  trap := rfl
  draws := rfl

/-- An instruction whose body writes one vector register completes with the value it wrote. -/
theorem completesWriting_of_body {i : Instr} {wd : VReg} {s : State} {v : Vec} {P : Vec → Prop}
    (h : executes s = true) (he : exec i s = mxa true s (complete (writeWr s wd v))) (hp : P v) :
    CompletesWriting i wd s P := by
  refine ⟨_, ?_, writeWr_wroteOnly s wd v, ?_⟩
  · rw [he, mxa_of_executes h]
    rfl
  · have : readWr { writeWr s wd v with pc := nextPc s } wd = v := readWr_writeWr_self s wd v
    rw [this]
    exact hp

/-- A base register after its update with an address: the address, or 0 for `GPR[0]` (R35). -/
theorem baseUpdated_writeGpr (s : State) (base : GReg) (v pc : Addr) (hv : wrapAddr s v = v) :
    BaseUpdated base v { writeGpr s base v with pc := pc } := by
  change readGpr (writeGpr s base v) base = _
  by_cases h : base = 0#5
  · subst h
    simp
  · rw [readGpr_writeGpr_self _ v h, if_neg h, hv]

/-- A load whose address `loads` allows does its writes and completes (R240). -/
theorem load_of_loads {s : State} {v : Addr} {n : Nat} {x : BitVec (8 * n)} (h : loads s v n x)
    (write : BitVec (8 * n) → State) : load s v n write = complete (write x) := by
  obtain ⟨ha, hp, hc, hm⟩ := h
  obtain ⟨p, hp⟩ := Option.isSome_iff_exists.mp hp
  simp [load, ha, hp, hc, hm]

/-- A store whose address `storesTo` allows writes memory, does its update and completes (R240). -/
theorem store_of_storesTo {s : State} {v : Addr} {n : Nat} {x : BitVec (8 * n)} (h : storesTo s v n)
    (update : State → State) :
    store s v n x update = complete (update { s with mem := memWrite s.mem s.params.endian v n x }) := by
  obtain ⟨ha, hp, hc⟩ := h
  obtain ⟨p, hp⟩ := Option.isSome_iff_exists.mp hp
  simp [store, ha, hp, hc]

/-! ## Exceptions -/

/-- Bit `k` of Cause after trap entry: BD clear, ExcCode the code, the rest kept (R359). -/
theorem getLsbD_causeWith (c : Word) (code : BitVec 5) (k : Nat) :
    (causeWith c code).getLsbD k
      = if k = 31 then false else if 2 ≤ k ∧ k < 7 then code.getLsbD (k - 2) else c.getLsbD k := by
  unfold causeWith
  by_cases hk : k < 32
  · interval_cases k <;> simp
  · have h1 : (c &&& 0x7FFFFF83#32 ||| code.setWidth 32 <<< 2).getLsbD k = false := BitVec.getLsbD_of_ge _ _ (by omega)
    have h2 : c.getLsbD k = false := BitVec.getLsbD_of_ge _ _ (by omega)
    have h3 : ¬(2 ≤ k ∧ k < 7) := by omega
    simp [h1, h2, h3]

/-- Trap entry does what R359 says and nothing else. -/
theorem enterException_took (s : State) (e : Exc) :
    TookException (excCode e) (excVAddr e) s (enterException s e) where
  epc := rfl
  excCode := by
    change (causeWith s.cause (excCode e)).extractLsb' 2 5 = excCode e
    apply BitVec.eq_of_getLsbD_eq
    intro k hk
    rw [BitVec.getLsbD_extractLsb', getLsbD_causeWith]
    interval_cases k <;> simp
  bd := by
    change (causeWith s.cause (excCode e)).getLsbD 31 = false
    rw [getLsbD_causeWith]
    rfl
  causeRest := by
    change causeWith s.cause (excCode e) &&& 0x7FFFFF83#32 = s.cause &&& 0x7FFFFF83#32
    apply BitVec.eq_of_getLsbD_eq
    intro k hk
    rw [BitVec.getLsbD_and, BitVec.getLsbD_and, getLsbD_causeWith]
    interval_cases k <;> simp
  exl := by
    change (s.status ||| 2#32).getLsbD 1 = true
    simp
  statusRest := by
    change (s.status ||| 2#32) &&& 0xFFFFFFFD#32 = s.status &&& 0xFFFFFFFD#32
    apply BitVec.eq_of_getLsbD_eq
    intro k hk
    interval_cases k <;> simp
  badVAddr := rfl
  pc := rfl
  trap := rfl
  kept := ⟨fun _ => rfl, fun _ => rfl, fun _ => rfl, rfl, rfl, rfl, rfl, ⟨rfl, rfl, rfl, rfl⟩⟩

end Sys2Proof.Machine
end

