-- ==== Sys2Proof/Laws/Lanes.lean ====
section
/-! SUPPORT. Elements of a register built from its elements (R14). -/

namespace Sys2Proof.Machine

theorem lanes_high {N w : Nat} (f : Nat → BitVec w) (n j : Nat) (h : w * n ≤ j) : (lanes N w f n).getLsbD j = false := by
  induction n with
  | zero => simp [lanes]
  | succ n ih =>
    have h1 : w * n + w ≤ j := by simpa [Nat.mul_succ] using h
    have h2 : (f n).getLsbD (j - w * n) = false := BitVec.getLsbD_of_ge _ _ (by omega)
    simp [lanes, ih (by omega), h2]

/-- Bit `w * i + k` of `lanes` is bit `k` of element `i`. -/
theorem getLsbD_lanes {N w : Nat} (f : Nat → BitVec w) (n i k : Nat) (hi : i < n) (hk : k < w) (hN : w * n ≤ N) :
    (lanes N w f n).getLsbD (w * i + k) = (f i).getLsbD k := by
  induction n with
  | zero => omega
  | succ n ih =>
    have hmul : w * (n + 1) = w * n + w := Nat.mul_succ w n
    have hin : w * i + k < N := by
      have : w * (i + 1) ≤ w * (n + 1) := Nat.mul_le_mul_left w hi
      rw [Nat.mul_succ] at this
      omega
    by_cases hlt : i < n
    · have hlow : w * i + k < w * n := by
        have : w * (i + 1) ≤ w * n := Nat.mul_le_mul_left w hlt
        rw [Nat.mul_succ] at this
        omega
      simp [lanes, ih hlt (by omega), hlow]
    · have hn : i = n := by omega
      subst hn
      have hz : (lanes N w f i).getLsbD (w * i + k) = false := lanes_high f i _ (by omega)
      have hk' : w * i + k - w * i = k := by omega
      have hkN : k < N := by omega
      rw [lanes, BitVec.getLsbD_or, hz, BitVec.getLsbD_shiftLeft, BitVec.getLsbD_setWidth, hk']
      simp [hin, hkN]

/-- Element `i` of `lanes` is what the function gives for it (R14). -/
theorem elem_lanes {N w : Nat} (f : Nat → BitVec w) (n i : Nat) (hi : i < n) (hN : w * n ≤ N) :
    elem w (lanes N w f n) i = f i := by
  apply BitVec.eq_of_getLsbD_eq
  intro k hk
  simp [elem, hk, getLsbD_lanes f n i k hi hk hN]

/-- The bits above the last element of `lanes` are zero. -/
theorem elem_lanes_high {N w : Nat} (f : Nat → BitVec w) (n i : Nat) (hi : n ≤ i) : elem w (lanes N w f n) i = 0#w := by
  apply BitVec.eq_of_getLsbD_eq
  intro k hk
  have : w * n ≤ w * i := Nat.mul_le_mul_left w hi
  simp [elem, lanes_high f n (w * i + k) (by omega)]

theorem elem_setElem_self {w : Nat} (x : Vec) (n : Nat) (v : BitVec w) (h : n < 128 / w) (hw : w * (128 / w) ≤ 128) :
    elem w (setElem w x n v) n = v := by
  simp [setElem, elem_lanes _ _ _ h hw]

theorem elem_setElem_ne {w : Nat} (x : Vec) (n i : Nat) (v : BitVec w) (h : i ≠ n) (hi : i < 128 / w)
    (hw : w * (128 / w) ≤ 128) : elem w (setElem w x n v) i = elem w x i := by
  simp [setElem, elem_lanes _ _ _ hi hw, h]

end Sys2Proof.Machine
end

