-- ==== Sys2Proof/Laws/PerInstr.lean ====
section
/-! SUPPORT. A family of statements, one per instruction: every instruction's word, whatever its operands, has COP2 in
bits 31:26 and 1 in bit 25, so that it stands in the rows of the `rs` map that belong to the MXA (R100, R101, R122). -/

namespace Sys2Proof.Laws

/-- The instruction's word is in the MXA's part of the encoding space. -/
def EncodedBits.Statement (i : Instr) : Prop :=
  (encode i).extractLsb' 26 6 = 0b010010#6 ∧ (encode i).getLsbD 25 = true

theorem EncodedBits.enc3RF (wt ws wd : VReg) (funct : BitVec 5) (df : BitVec 1) :
    (enc3RF wt ws wd funct df).extractLsb' 26 6 = 0b010010#6 ∧ (enc3RF wt ws wd funct df).getLsbD 25 = true := by
  unfold Sys2Proof.enc3RF
  constructor
  · apply BitVec.eq_of_getLsbD_eq
    intro k hk
    simp only [BitVec.getLsbD_extractLsb', BitVec.getLsbD_append]
    interval_cases k <;> simp
  · simp only [BitVec.getLsbD_append]
    simp

theorem EncodedBits.enc2R (funct1 : BitVec 5) (ws wd : VReg) (funct0 : BitVec 4) (df : BitVec 2) :
    (enc2R funct1 ws wd funct0 df).extractLsb' 26 6 = 0b010010#6 ∧ (enc2R funct1 ws wd funct0 df).getLsbD 25 = true := by
  unfold Sys2Proof.enc2R
  constructor
  · apply BitVec.eq_of_getLsbD_eq
    intro k hk
    simp only [BitVec.getLsbD_extractLsb', BitVec.getLsbD_append]
    interval_cases k <;> simp
  · simp only [BitVec.getLsbD_append]
    simp

theorem EncodedBits.enc4R (wt ws wd wr : VReg) (op : BitVec 1) :
    (enc4R wt ws wd wr op).extractLsb' 26 6 = 0b010010#6 ∧ (enc4R wt ws wd wr op).getLsbD 25 = true := by
  unfold Sys2Proof.enc4R
  constructor
  · apply BitVec.eq_of_getLsbD_eq
    intro k hk
    simp only [BitVec.getLsbD_extractLsb', BitVec.getLsbD_append]
    interval_cases k <;> simp
  · simp only [BitVec.getLsbD_append]
    simp

theorem EncodedBits.enc3R (rs : BitVec 5) (wt ws wd : VReg) (funct : BitVec 4) (df : BitVec 2) (h : rs.getLsbD 4 = true) :
    (enc3R rs wt ws wd funct df).extractLsb' 26 6 = 0b010010#6 ∧ (enc3R rs wt ws wd funct df).getLsbD 25 = true := by
  unfold Sys2Proof.enc3R
  constructor
  · apply BitVec.eq_of_getLsbD_eq
    intro k hk
    simp only [BitVec.getLsbD_extractLsb', BitVec.getLsbD_append]
    interval_cases k <;> simp
  · simp only [BitVec.getLsbD_append]
    simpa using h

theorem EncodedBits.encElm (rs high middle wd : BitVec 5) (dfn : BitVec 6) (h : rs.getLsbD 4 = true) :
    (encElm rs high middle wd dfn).extractLsb' 26 6 = 0b010010#6 ∧ (encElm rs high middle wd dfn).getLsbD 25 = true := by
  unfold Sys2Proof.encElm
  constructor
  · apply BitVec.eq_of_getLsbD_eq
    intro k hk
    simp only [BitVec.getLsbD_extractLsb', BitVec.getLsbD_append]
    interval_cases k <;> simp
  · simp only [BitVec.getLsbD_append]
    simpa using h

theorem EncodedBits.fexuplcW wd ws wt : EncodedBits.Statement (.fexuplcW wd ws wt) :=
  EncodedBits.enc3RF _ _ _ _ _

theorem EncodedBits.fcmulW wd ws wt : EncodedBits.Statement (.fcmulW wd ws wt) :=
  EncodedBits.enc3RF _ _ _ _ _

theorem EncodedBits.fexuprcW wd ws wt : EncodedBits.Statement (.fexuprcW wd ws wt) :=
  EncodedBits.enc3RF _ _ _ _ _

theorem EncodedBits.addslH wd ws wt : EncodedBits.Statement (.addslH wd ws wt) :=
  EncodedBits.enc3R _ _ _ _ _ _ (by decide)

theorem EncodedBits.addslW wd ws wt : EncodedBits.Statement (.addslW wd ws wt) :=
  EncodedBits.enc3R _ _ _ _ _ _ (by decide)

theorem EncodedBits.addsrH wd ws wt : EncodedBits.Statement (.addsrH wd ws wt) :=
  EncodedBits.enc3R _ _ _ _ _ _ (by decide)

theorem EncodedBits.addsrW wd ws wt : EncodedBits.Statement (.addsrW wd ws wt) :=
  EncodedBits.enc3R _ _ _ _ _ _ (by decide)

theorem EncodedBits.addulH wd ws wt : EncodedBits.Statement (.addulH wd ws wt) :=
  EncodedBits.enc3R _ _ _ _ _ _ (by decide)

theorem EncodedBits.addulW wd ws wt : EncodedBits.Statement (.addulW wd ws wt) :=
  EncodedBits.enc3R _ _ _ _ _ _ (by decide)

theorem EncodedBits.addurH wd ws wt : EncodedBits.Statement (.addurH wd ws wt) :=
  EncodedBits.enc3R _ _ _ _ _ _ (by decide)

theorem EncodedBits.addurW wd ws wt : EncodedBits.Statement (.addurW wd ws wt) :=
  EncodedBits.enc3R _ _ _ _ _ _ (by decide)

theorem EncodedBits.subslH wd ws wt : EncodedBits.Statement (.subslH wd ws wt) :=
  EncodedBits.enc3R _ _ _ _ _ _ (by decide)

theorem EncodedBits.subslW wd ws wt : EncodedBits.Statement (.subslW wd ws wt) :=
  EncodedBits.enc3R _ _ _ _ _ _ (by decide)

theorem EncodedBits.subsrH wd ws wt : EncodedBits.Statement (.subsrH wd ws wt) :=
  EncodedBits.enc3R _ _ _ _ _ _ (by decide)

theorem EncodedBits.subsrW wd ws wt : EncodedBits.Statement (.subsrW wd ws wt) :=
  EncodedBits.enc3R _ _ _ _ _ _ (by decide)

theorem EncodedBits.subulH wd ws wt : EncodedBits.Statement (.subulH wd ws wt) :=
  EncodedBits.enc3R _ _ _ _ _ _ (by decide)

theorem EncodedBits.subulW wd ws wt : EncodedBits.Statement (.subulW wd ws wt) :=
  EncodedBits.enc3R _ _ _ _ _ _ (by decide)

theorem EncodedBits.suburH wd ws wt : EncodedBits.Statement (.suburH wd ws wt) :=
  EncodedBits.enc3R _ _ _ _ _ _ (by decide)

theorem EncodedBits.suburW wd ws wt : EncodedBits.Statement (.suburW wd ws wt) :=
  EncodedBits.enc3R _ _ _ _ _ _ (by decide)

theorem EncodedBits.mulslH wd ws wt : EncodedBits.Statement (.mulslH wd ws wt) :=
  EncodedBits.enc3R _ _ _ _ _ _ (by decide)

theorem EncodedBits.mulslW wd ws wt : EncodedBits.Statement (.mulslW wd ws wt) :=
  EncodedBits.enc3R _ _ _ _ _ _ (by decide)

theorem EncodedBits.mulsrH wd ws wt : EncodedBits.Statement (.mulsrH wd ws wt) :=
  EncodedBits.enc3R _ _ _ _ _ _ (by decide)

theorem EncodedBits.mulsrW wd ws wt : EncodedBits.Statement (.mulsrW wd ws wt) :=
  EncodedBits.enc3R _ _ _ _ _ _ (by decide)

theorem EncodedBits.mululH wd ws wt : EncodedBits.Statement (.mululH wd ws wt) :=
  EncodedBits.enc3R _ _ _ _ _ _ (by decide)

theorem EncodedBits.mululW wd ws wt : EncodedBits.Statement (.mululW wd ws wt) :=
  EncodedBits.enc3R _ _ _ _ _ _ (by decide)

theorem EncodedBits.mulurH wd ws wt : EncodedBits.Statement (.mulurH wd ws wt) :=
  EncodedBits.enc3R _ _ _ _ _ _ (by decide)

theorem EncodedBits.mulurW wd ws wt : EncodedBits.Statement (.mulurW wd ws wt) :=
  EncodedBits.enc3R _ _ _ _ _ _ (by decide)

theorem EncodedBits.sllV wd ws wt : EncodedBits.Statement (.sllV wd ws wt) :=
  EncodedBits.enc3R _ _ _ _ _ _ (by decide)

theorem EncodedBits.bmuV wd ws wt : EncodedBits.Statement (.bmuV wd ws wt) :=
  EncodedBits.enc3R _ _ _ _ _ _ (by decide)

theorem EncodedBits.srlV wd ws wt : EncodedBits.Statement (.srlV wd ws wt) :=
  EncodedBits.enc3R _ _ _ _ _ _ (by decide)

theorem EncodedBits.satssB wd ws wt : EncodedBits.Statement (.satssB wd ws wt) :=
  EncodedBits.enc3R _ _ _ _ _ _ (by decide)

theorem EncodedBits.satssH wd ws wt : EncodedBits.Statement (.satssH wd ws wt) :=
  EncodedBits.enc3R _ _ _ _ _ _ (by decide)

theorem EncodedBits.satuuB wd ws wt : EncodedBits.Statement (.satuuB wd ws wt) :=
  EncodedBits.enc3R _ _ _ _ _ _ (by decide)

theorem EncodedBits.satuuH wd ws wt : EncodedBits.Statement (.satuuH wd ws wt) :=
  EncodedBits.enc3R _ _ _ _ _ _ (by decide)

theorem EncodedBits.satusB wd ws wt : EncodedBits.Statement (.satusB wd ws wt) :=
  EncodedBits.enc3R _ _ _ _ _ _ (by decide)

theorem EncodedBits.satusH wd ws wt : EncodedBits.Statement (.satusH wd ws wt) :=
  EncodedBits.enc3R _ _ _ _ _ _ (by decide)

theorem EncodedBits.movbtB wd ws wt : EncodedBits.Statement (.movbtB wd ws wt) :=
  EncodedBits.enc3R _ _ _ _ _ _ (by decide)

theorem EncodedBits.movbpB wd ws wt : EncodedBits.Statement (.movbpB wd ws wt) :=
  EncodedBits.enc3R _ _ _ _ _ _ (by decide)

theorem EncodedBits.moveW wd m ws n : EncodedBits.Statement (.moveW wd m ws n) :=
  EncodedBits.encElm _ _ _ _ _ (by decide)

theorem EncodedBits.stextuW wd n base : EncodedBits.Statement (.stextuW wd n base) :=
  EncodedBits.encElm _ _ _ _ _ (by decide)

theorem EncodedBits.stextuD wd n base : EncodedBits.Statement (.stextuD wd n base) :=
  EncodedBits.encElm _ _ _ _ _ (by decide)

theorem EncodedBits.ldinsW wd n index base : EncodedBits.Statement (.ldinsW wd n index base) :=
  EncodedBits.encElm _ _ _ _ _ (by decide)

theorem EncodedBits.ldinsD wd n index base : EncodedBits.Statement (.ldinsD wd n index base) :=
  EncodedBits.encElm _ _ _ _ _ (by decide)

theorem EncodedBits.ldinssW wd n index base : EncodedBits.Statement (.ldinssW wd n index base) :=
  EncodedBits.encElm _ _ _ _ _ (by decide)

theorem EncodedBits.vsldiB wd ws wt n : EncodedBits.Statement (.vsldiB wd ws wt n) :=
  EncodedBits.encElm _ _ _ _ _ (by decide)

theorem EncodedBits.stextW wd n index base : EncodedBits.Statement (.stextW wd n index base) :=
  EncodedBits.encElm _ _ _ _ _ (by decide)

theorem EncodedBits.stextD wd n index base : EncodedBits.Statement (.stextD wd n index base) :=
  EncodedBits.encElm _ _ _ _ _ (by decide)

theorem EncodedBits.ldinssuW wd n index base : EncodedBits.Statement (.ldinssuW wd n index base) :=
  EncodedBits.encElm _ _ _ _ _ (by decide)

theorem EncodedBits.ldinssu2W wd n index base : EncodedBits.Statement (.ldinssu2W wd n index base) :=
  EncodedBits.encElm _ _ _ _ _ (by decide)

theorem EncodedBits.ldinsuW wd n index base : EncodedBits.Statement (.ldinsuW wd n index base) :=
  EncodedBits.encElm _ _ _ _ _ (by decide)

theorem EncodedBits.ldinsuD wd n index base : EncodedBits.Statement (.ldinsuD wd n index base) :=
  EncodedBits.encElm _ _ _ _ _ (by decide)

theorem EncodedBits.pcntV wd ws : EncodedBits.Statement (.pcntV wd ws) :=
  EncodedBits.enc2R _ _ _ _ _

theorem EncodedBits.slliV wd ws m : EncodedBits.Statement (.slliV wd ws m) :=
  EncodedBits.enc2R _ _ _ _ _

theorem EncodedBits.srliV wd ws m : EncodedBits.Statement (.srliV wd ws m) :=
  EncodedBits.enc2R _ _ _ _ _

theorem EncodedBits.bextB wd ws : EncodedBits.Statement (.bextB wd ws) :=
  EncodedBits.enc2R _ _ _ _ _

theorem EncodedBits.bextH wd ws : EncodedBits.Statement (.bextH wd ws) :=
  EncodedBits.enc2R _ _ _ _ _

theorem EncodedBits.bextW wd ws : EncodedBits.Statement (.bextW wd ws) :=
  EncodedBits.enc2R _ _ _ _ _

theorem EncodedBits.bexpB wd ws : EncodedBits.Statement (.bexpB wd ws) :=
  EncodedBits.enc2R _ _ _ _ _

theorem EncodedBits.bexpH wd ws : EncodedBits.Statement (.bexpH wd ws) :=
  EncodedBits.enc2R _ _ _ _ _

theorem EncodedBits.bexpW wd ws : EncodedBits.Statement (.bexpW wd ws) :=
  EncodedBits.enc2R _ _ _ _ _

theorem EncodedBits.bexp2B wd ws : EncodedBits.Statement (.bexp2B wd ws) :=
  EncodedBits.enc2R _ _ _ _ _

theorem EncodedBits.bexp4B wd ws : EncodedBits.Statement (.bexp4B wd ws) :=
  EncodedBits.enc2R _ _ _ _ _

theorem EncodedBits.acculH wd ws : EncodedBits.Statement (.acculH wd ws) :=
  EncodedBits.enc2R _ _ _ _ _

theorem EncodedBits.acculW wd ws : EncodedBits.Statement (.acculW wd ws) :=
  EncodedBits.enc2R _ _ _ _ _

theorem EncodedBits.accurH wd ws : EncodedBits.Statement (.accurH wd ws) :=
  EncodedBits.enc2R _ _ _ _ _

theorem EncodedBits.accurW wd ws : EncodedBits.Statement (.accurW wd ws) :=
  EncodedBits.enc2R _ _ _ _ _

theorem EncodedBits.accslH wd ws : EncodedBits.Statement (.accslH wd ws) :=
  EncodedBits.enc2R _ _ _ _ _

theorem EncodedBits.accslW wd ws : EncodedBits.Statement (.accslW wd ws) :=
  EncodedBits.enc2R _ _ _ _ _

theorem EncodedBits.accsrH wd ws : EncodedBits.Statement (.accsrH wd ws) :=
  EncodedBits.enc2R _ _ _ _ _

theorem EncodedBits.accsrW wd ws : EncodedBits.Statement (.accsrW wd ws) :=
  EncodedBits.enc2R _ _ _ _ _

theorem EncodedBits.vshfrB wd ws wt wr : EncodedBits.Statement (.vshfrB wd ws wt wr) :=
  EncodedBits.enc4R _ _ _ _ _

theorem EncodedBits.bmrV wd ws wt wr : EncodedBits.Statement (.bmrV wd ws wt wr) :=
  EncodedBits.enc4R _ _ _ _ _

end Sys2Proof.Laws
end

