-- ==== Sys2Proof/Tests/Slice0.lean ====
section
/-! SUPPORT. Tests: the checks of WellFormed, the decoding of every instruction's word, at most two small results per
instruction, all with values from the spec's examples and spec/95_test_vectors.md; and one witness for each statement
that has hypotheses. -/

namespace Sys2Proof.Tests

set_option Elab.async false

open Sys2Proof Sys2Proof.Machine

/-! ## WellFormed: an ill-formed term for each check -/

theorem test_illformed_moveW_n :
    Instr.wellFormed (.moveW 0 0 0 4) = false ∧ Instr.wellFormed (.moveW 0 0 0 3) = true := by decide
theorem test_illformed_moveW_m :
    Instr.wellFormed (.moveW 0 4 0 0) = false ∧ Instr.wellFormed (.moveW 0 3 0 0) = true := by decide
theorem test_illformed_stextuW_n :
    Instr.wellFormed (.stextuW 0 4 0) = false ∧ Instr.wellFormed (.stextuW 0 3 0) = true := by decide
theorem test_illformed_stextuD_n :
    Instr.wellFormed (.stextuD 0 2 0) = false ∧ Instr.wellFormed (.stextuD 0 1 0) = true := by decide
theorem test_illformed_ldinsW_n :
    Instr.wellFormed (.ldinsW 0 4 0 0) = false ∧ Instr.wellFormed (.ldinsW 0 3 0 0) = true := by decide
theorem test_illformed_ldinsD_n :
    Instr.wellFormed (.ldinsD 0 2 0 0) = false ∧ Instr.wellFormed (.ldinsD 0 1 0 0) = true := by decide
theorem test_illformed_ldinssW_n :
    Instr.wellFormed (.ldinssW 0 4 0 0) = false ∧ Instr.wellFormed (.ldinssW 0 3 0 0) = true := by decide
theorem test_illformed_vsldiB_n :
    Instr.wellFormed (.vsldiB 0 0 0 16) = false ∧ Instr.wellFormed (.vsldiB 0 0 0 15) = true := by decide
theorem test_illformed_stextW_n :
    Instr.wellFormed (.stextW 0 4 0 0) = false ∧ Instr.wellFormed (.stextW 0 3 0 0) = true := by decide
theorem test_illformed_stextD_n :
    Instr.wellFormed (.stextD 0 2 0 0) = false ∧ Instr.wellFormed (.stextD 0 1 0 0) = true := by decide
theorem test_illformed_ldinssuW_n :
    Instr.wellFormed (.ldinssuW 0 4 0 0) = false ∧ Instr.wellFormed (.ldinssuW 0 3 0 0) = true := by decide
theorem test_illformed_ldinssu2W_n :
    Instr.wellFormed (.ldinssu2W 0 8 0 0) = false ∧ Instr.wellFormed (.ldinssu2W 0 7 0 0) = true := by decide
theorem test_illformed_ldinsuW_n :
    Instr.wellFormed (.ldinsuW 0 4 0 0) = false ∧ Instr.wellFormed (.ldinsuW 0 3 0 0) = true := by decide
theorem test_illformed_ldinsuD_n :
    Instr.wellFormed (.ldinsuD 0 2 0 0) = false ∧ Instr.wellFormed (.ldinsuD 0 1 0 0) = true := by decide
theorem test_illformed_slliV_m :
    Instr.wellFormed (.slliV 0 0 32) = false ∧ Instr.wellFormed (.slliV 0 0 31) = true := by decide
theorem test_illformed_srliV_m :
    Instr.wellFormed (.srliV 0 0 32) = false ∧ Instr.wellFormed (.srliV 0 0 31) = true := by decide

/-! ## Decoding: every constructor, with the word of an example of the spec -/

theorem test_decode_fexuplcW :
    decode 0x4A031040#32 = .instr (.fexuplcW 1 2 3) ∧ encode (.fexuplcW 1 2 3) = 0x4A031040#32 := by decide
theorem test_decode_fcmulW :
    decode 0x4A031046#32 = .instr (.fcmulW 1 2 3) ∧ encode (.fcmulW 1 2 3) = 0x4A031046#32 := by decide
theorem test_decode_fexuprcW :
    decode 0x4A031048#32 = .instr (.fexuprcW 1 2 3) ∧ encode (.fexuprcW 1 2 3) = 0x4A031048#32 := by decide
theorem test_decode_addslH :
    decode 0x4A231041#32 = .instr (.addslH 1 2 3) ∧ encode (.addslH 1 2 3) = 0x4A231041#32 := by decide
theorem test_decode_addslW :
    decode 0x4A231042#32 = .instr (.addslW 1 2 3) ∧ encode (.addslW 1 2 3) = 0x4A231042#32 := by decide
theorem test_decode_addsrH :
    decode 0x4A231045#32 = .instr (.addsrH 1 2 3) ∧ encode (.addsrH 1 2 3) = 0x4A231045#32 := by decide
theorem test_decode_addsrW :
    decode 0x4A231046#32 = .instr (.addsrW 1 2 3) ∧ encode (.addsrW 1 2 3) = 0x4A231046#32 := by decide
theorem test_decode_addulH :
    decode 0x4A231049#32 = .instr (.addulH 1 2 3) ∧ encode (.addulH 1 2 3) = 0x4A231049#32 := by decide
theorem test_decode_addulW :
    decode 0x4A23104A#32 = .instr (.addulW 1 2 3) ∧ encode (.addulW 1 2 3) = 0x4A23104A#32 := by decide
theorem test_decode_addurH :
    decode 0x4A23104D#32 = .instr (.addurH 1 2 3) ∧ encode (.addurH 1 2 3) = 0x4A23104D#32 := by decide
theorem test_decode_addurW :
    decode 0x4A23104E#32 = .instr (.addurW 1 2 3) ∧ encode (.addurW 1 2 3) = 0x4A23104E#32 := by decide
theorem test_decode_subslH :
    decode 0x4A231061#32 = .instr (.subslH 1 2 3) ∧ encode (.subslH 1 2 3) = 0x4A231061#32 := by decide
theorem test_decode_subslW :
    decode 0x4A231062#32 = .instr (.subslW 1 2 3) ∧ encode (.subslW 1 2 3) = 0x4A231062#32 := by decide
theorem test_decode_subsrH :
    decode 0x4A231065#32 = .instr (.subsrH 1 2 3) ∧ encode (.subsrH 1 2 3) = 0x4A231065#32 := by decide
theorem test_decode_subsrW :
    decode 0x4A231066#32 = .instr (.subsrW 1 2 3) ∧ encode (.subsrW 1 2 3) = 0x4A231066#32 := by decide
theorem test_decode_subulH :
    decode 0x4A231069#32 = .instr (.subulH 1 2 3) ∧ encode (.subulH 1 2 3) = 0x4A231069#32 := by decide
theorem test_decode_subulW :
    decode 0x4A23106A#32 = .instr (.subulW 1 2 3) ∧ encode (.subulW 1 2 3) = 0x4A23106A#32 := by decide
theorem test_decode_suburH :
    decode 0x4A23106D#32 = .instr (.suburH 1 2 3) ∧ encode (.suburH 1 2 3) = 0x4A23106D#32 := by decide
theorem test_decode_suburW :
    decode 0x4A23106E#32 = .instr (.suburW 1 2 3) ∧ encode (.suburW 1 2 3) = 0x4A23106E#32 := by decide
theorem test_decode_mulslH :
    decode 0x4A231071#32 = .instr (.mulslH 1 2 3) ∧ encode (.mulslH 1 2 3) = 0x4A231071#32 := by decide
theorem test_decode_mulslW :
    decode 0x4A231072#32 = .instr (.mulslW 1 2 3) ∧ encode (.mulslW 1 2 3) = 0x4A231072#32 := by decide
theorem test_decode_mulsrH :
    decode 0x4A231075#32 = .instr (.mulsrH 1 2 3) ∧ encode (.mulsrH 1 2 3) = 0x4A231075#32 := by decide
theorem test_decode_mulsrW :
    decode 0x4A231076#32 = .instr (.mulsrW 1 2 3) ∧ encode (.mulsrW 1 2 3) = 0x4A231076#32 := by decide
theorem test_decode_mululH :
    decode 0x4A231079#32 = .instr (.mululH 1 2 3) ∧ encode (.mululH 1 2 3) = 0x4A231079#32 := by decide
theorem test_decode_mululW :
    decode 0x4A23107A#32 = .instr (.mululW 1 2 3) ∧ encode (.mululW 1 2 3) = 0x4A23107A#32 := by decide
theorem test_decode_mulurH :
    decode 0x4A23107D#32 = .instr (.mulurH 1 2 3) ∧ encode (.mulurH 1 2 3) = 0x4A23107D#32 := by decide
theorem test_decode_mulurW :
    decode 0x4A23107E#32 = .instr (.mulurW 1 2 3) ∧ encode (.mulurW 1 2 3) = 0x4A23107E#32 := by decide
theorem test_decode_sllV :
    decode 0x4A431040#32 = .instr (.sllV 1 2 3) ∧ encode (.sllV 1 2 3) = 0x4A431040#32 := by decide
theorem test_decode_bmuV :
    decode 0x4A431041#32 = .instr (.bmuV 1 2 3) ∧ encode (.bmuV 1 2 3) = 0x4A431041#32 := by decide
theorem test_decode_srlV :
    decode 0x4A431044#32 = .instr (.srlV 1 2 3) ∧ encode (.srlV 1 2 3) = 0x4A431044#32 := by decide
theorem test_decode_satssB :
    decode 0x4A431048#32 = .instr (.satssB 1 2 3) ∧ encode (.satssB 1 2 3) = 0x4A431048#32 := by decide
theorem test_decode_satssH :
    decode 0x4A431049#32 = .instr (.satssH 1 2 3) ∧ encode (.satssH 1 2 3) = 0x4A431049#32 := by decide
theorem test_decode_satuuB :
    decode 0x4A43104C#32 = .instr (.satuuB 1 2 3) ∧ encode (.satuuB 1 2 3) = 0x4A43104C#32 := by decide
theorem test_decode_satuuH :
    decode 0x4A43104D#32 = .instr (.satuuH 1 2 3) ∧ encode (.satuuH 1 2 3) = 0x4A43104D#32 := by decide
theorem test_decode_satusB :
    decode 0x4A431050#32 = .instr (.satusB 1 2 3) ∧ encode (.satusB 1 2 3) = 0x4A431050#32 := by decide
theorem test_decode_satusH :
    decode 0x4A431051#32 = .instr (.satusH 1 2 3) ∧ encode (.satusH 1 2 3) = 0x4A431051#32 := by decide
theorem test_decode_movbtB :
    decode 0x4A431060#32 = .instr (.movbtB 1 2 3) ∧ encode (.movbtB 1 2 3) = 0x4A431060#32 := by decide
theorem test_decode_movbpB :
    decode 0x4A431064#32 = .instr (.movbpB 1 2 3) ∧ encode (.movbpB 1 2 3) = 0x4A431064#32 := by decide
theorem test_decode_moveW :
    decode 0x4A80104C#32 = .instr (.moveW 1 3 2 0) ∧ encode (.moveW 1 3 2 0) = 0x4A80104C#32 := by decide
theorem test_decode_stextuW :
    decode 0x4A812072#32 = .instr (.stextuW 1 2 4) ∧ encode (.stextuW 1 2 4) = 0x4A812072#32 := by decide
theorem test_decode_stextuD :
    decode 0x4A812079#32 = .instr (.stextuD 1 1 4) ∧ encode (.stextuD 1 1 4) = 0x4A812079#32 := by decide
theorem test_decode_ldinsW :
    decode 0x4AA42872#32 = .instr (.ldinsW 1 2 5 4) ∧ encode (.ldinsW 1 2 5 4) = 0x4AA42872#32 := by decide
theorem test_decode_ldinsD :
    decode 0x4AA42879#32 = .instr (.ldinsD 1 1 5 4) ∧ encode (.ldinsD 1 1 5 4) = 0x4AA42879#32 := by decide
theorem test_decode_ldinssW :
    decode 0x4AA4287D#32 = .instr (.ldinssW 1 1 5 4) ∧ encode (.ldinssW 1 1 5 4) = 0x4AA4287D#32 := by decide
theorem test_decode_vsldiB :
    decode 0x4AC31043#32 = .instr (.vsldiB 1 2 3 3) ∧ encode (.vsldiB 1 2 3 3) = 0x4AC31043#32 := by decide
theorem test_decode_stextW :
    decode 0x4AC42873#32 = .instr (.stextW 1 3 5 4) ∧ encode (.stextW 1 3 5 4) = 0x4AC42873#32 := by decide
theorem test_decode_stextD :
    decode 0x4AC42878#32 = .instr (.stextD 1 0 5 4) ∧ encode (.stextD 1 0 5 4) = 0x4AC42878#32 := by decide
theorem test_decode_ldinssuW :
    decode 0x4AC4287D#32 = .instr (.ldinssuW 1 1 5 4) ∧ encode (.ldinssuW 1 1 5 4) = 0x4AC4287D#32 := by decide
theorem test_decode_ldinssu2W :
    decode 0x4AE42865#32 = .instr (.ldinssu2W 1 5 5 4) ∧ encode (.ldinssu2W 1 5 5 4) = 0x4AE42865#32 := by decide
theorem test_decode_ldinsuW :
    decode 0x4AE42872#32 = .instr (.ldinsuW 1 2 5 4) ∧ encode (.ldinsuW 1 2 5 4) = 0x4AE42872#32 := by decide
theorem test_decode_ldinsuD :
    decode 0x4AE42879#32 = .instr (.ldinsuD 1 1 5 4) ∧ encode (.ldinsuD 1 1 5 4) = 0x4AE42879#32 := by decide
theorem test_decode_pcntV :
    decode 0x4B401040#32 = .instr (.pcntV 1 2) ∧ encode (.pcntV 1 2) = 0x4B401040#32 := by decide
theorem test_decode_slliV :
    decode 0x4B441078#32 = .instr (.slliV 1 2 4) ∧ encode (.slliV 1 2 4) = 0x4B441078#32 := by decide
theorem test_decode_srliV :
    decode 0x4B44107C#32 = .instr (.srliV 1 2 4) ∧ encode (.srliV 1 2 4) = 0x4B44107C#32 := by decide
theorem test_decode_bextB :
    decode 0x4B411040#32 = .instr (.bextB 1 2) ∧ encode (.bextB 1 2) = 0x4B411040#32 := by decide
theorem test_decode_bextH :
    decode 0x4B411041#32 = .instr (.bextH 1 2) ∧ encode (.bextH 1 2) = 0x4B411041#32 := by decide
theorem test_decode_bextW :
    decode 0x4B411042#32 = .instr (.bextW 1 2) ∧ encode (.bextW 1 2) = 0x4B411042#32 := by decide
theorem test_decode_bexpB :
    decode 0x4B421040#32 = .instr (.bexpB 1 2) ∧ encode (.bexpB 1 2) = 0x4B421040#32 := by decide
theorem test_decode_bexpH :
    decode 0x4B421041#32 = .instr (.bexpH 1 2) ∧ encode (.bexpH 1 2) = 0x4B421041#32 := by decide
theorem test_decode_bexpW :
    decode 0x4B421042#32 = .instr (.bexpW 1 2) ∧ encode (.bexpW 1 2) = 0x4B421042#32 := by decide
theorem test_decode_bexp2B :
    decode 0x4B431040#32 = .instr (.bexp2B 1 2) ∧ encode (.bexp2B 1 2) = 0x4B431040#32 := by decide
theorem test_decode_bexp4B :
    decode 0x4B431041#32 = .instr (.bexp4B 1 2) ∧ encode (.bexp4B 1 2) = 0x4B431041#32 := by decide
theorem test_decode_acculH :
    decode 0x4B451041#32 = .instr (.acculH 1 2) ∧ encode (.acculH 1 2) = 0x4B451041#32 := by decide
theorem test_decode_acculW :
    decode 0x4B451042#32 = .instr (.acculW 1 2) ∧ encode (.acculW 1 2) = 0x4B451042#32 := by decide
theorem test_decode_accurH :
    decode 0x4B461041#32 = .instr (.accurH 1 2) ∧ encode (.accurH 1 2) = 0x4B461041#32 := by decide
theorem test_decode_accurW :
    decode 0x4B461042#32 = .instr (.accurW 1 2) ∧ encode (.accurW 1 2) = 0x4B461042#32 := by decide
theorem test_decode_accslH :
    decode 0x4B471041#32 = .instr (.accslH 1 2) ∧ encode (.accslH 1 2) = 0x4B471041#32 := by decide
theorem test_decode_accslW :
    decode 0x4B471042#32 = .instr (.accslW 1 2) ∧ encode (.accslW 1 2) = 0x4B471042#32 := by decide
theorem test_decode_accsrH :
    decode 0x4B481041#32 = .instr (.accsrH 1 2) ∧ encode (.accsrH 1 2) = 0x4B481041#32 := by decide
theorem test_decode_accsrW :
    decode 0x4B481042#32 = .instr (.accsrW 1 2) ∧ encode (.accsrW 1 2) = 0x4B481042#32 := by decide
theorem test_decode_vshfrB :
    decode 0x4BA31048#32 = .instr (.vshfrB 1 2 3 4) ∧ encode (.vshfrB 1 2 3 4) = 0x4BA31048#32 := by decide
theorem test_decode_bmrV :
    decode 0x4BA31049#32 = .instr (.bmrV 1 2 3 4) ∧ encode (.bmrV 1 2 3 4) = 0x4BA31049#32 := by decide

/-! ## Decoding: words written bit by bit from the formats of R102 to R108, all registers different -/

theorem test_bits_3RFC2 :
    decode 0b01001010000101010101101111000110#32 = .instr (.fcmulW 0b01111 0b01011 0b10101) := by
  decide
theorem test_bits_3RC2_widen :
    decode 0b01001010001101010101101111111110#32 = .instr (.mulurW 0b01111 0b01011 0b10101) := by
  decide
theorem test_bits_3RC2_vector :
    decode 0b01001010010101010101101111010001#32 = .instr (.satusH 0b01111 0b01011 0b10101) := by
  decide
theorem test_bits_ELM2RC2_move :
    decode 0b01001010100000000101101111001001#32 = .instr (.moveW 0b01111 2 0b01011 1) := by
  decide
theorem test_bits_ELM2RC2_store :
    decode 0b01001010100000010101101111111001#32 = .instr (.stextuD 0b01111 1 0b01011) := by
  decide
theorem test_bits_ELMC2_load :
    decode 0b01001010111101010101101111100110#32 = .instr (.ldinssu2W 0b01111 6 0b01011 0b10101) := by
  decide
theorem test_bits_ELMC2_slide :
    decode 0b01001010110101010101101111001011#32 = .instr (.vsldiB 0b01111 0b01011 0b10101 11) := by
  decide
theorem test_bits_2RC2 : decode 0b01001011010001110101101111000010#32 = .instr (.accslW 0b01111 0b01011) := by decide
theorem test_bits_2RC2_shift :
    decode 0b01001011010101010101101111111100#32 = .instr (.srliV 0b01111 0b01011 21) := by decide
theorem test_bits_4R :
    decode 0b01001011101101010101101111000111#32 = .instr (.bmrV 0b01111 0b01011 0b10101 0b00011) := by
  decide

/-! ## Reserved words and words outside (spec/95_test_vectors.md, V30) -/

theorem test_reserved_V30_2 : decode 0x4A031047#32 = .reserved := by decide
theorem test_reserved_V30_3 : decode 0x4A000001#32 = .reserved := by decide
theorem test_reserved_V30_6 : decode 0x4A200003#32 = .reserved := by decide
theorem test_reserved_V30_11 : decode 0x4A400028#32 = .reserved := by decide
theorem test_reserved_V30_16 : decode 0x4A81003A#32 = .reserved := by decide
theorem test_reserved_V30_24 : decode 0x4AA42874#32 = .reserved := by decide
theorem test_reserved_V30_34 : decode 0x4B401041#32 = .reserved := by decide
theorem test_outside_notCop2 : decode 0x7A031046#32 = .outside .notCop2 := by decide
theorem test_outside_bc2nez : decode 0x49A00000#32 = .outside (.baseCop2 .bc2nez) := by decide
theorem test_truncated : (decodeBytes .little [0x46#8, 0x10#8, 0x03#8]).1 = .outside .truncated := by decide
theorem test_decodeTableWord : decodeTableWord 32 0x4A031046 = some (.fcmulW 1 2 3) := by decide
theorem test_bytes_big :
    decodeBytes .big [0x4A#8, 0x03#8, 0x10#8, 0x46#8, 0#8] = (.instr (.fcmulW 1 2 3), [0#8]) := by decide

/-! ## Results of one instruction -/

/-- The state after reset with `$w1` = wd, `$w2` = ws, `$w3` = wt, `$w4` = wr. -/
def vectors (ws wt wd wr : Vec) : State :=
  writeWr (writeWr (writeWr (writeWr State.reset 1 wd) 2 ws) 3 wt) 4 wr

/-- What `f` reads of the next state. -/
def after {α : Type} (r : Result) (f : State → α) : Option α :=
  match r with
  | .next t => some (f t)
  | .fault _ => none
  | .refused _ => none

/-- The state of V44's vectors: 64 bytes from 0x1000, each its own offset; `$4`, `$5`, `$6` and `$w1` set. -/
def bytes64 : State :=
  { writeGpr (writeGpr (writeGpr (writeWr State.reset 1 0x00112233445566778899AABBCCDDEEFF) 4 0x1000) 5 0x10) 6
      0xFFFFFFF0 with
    mem := (List.range 64).map fun k => (0x1000 + k, BitVec.ofNat 8 k) }

theorem test_fexuplcW_24 :
    after (exec (.fexuplcW 1 2 3) (vectors 0x7C007BFFC0003C001234567812345678#128 0x00F500F500F500F5FFFFFFFFFFFFFFFF#128
      0#128 0#128)) (readWr · 1) = some 0x47800000477FE000C00000003F800000#128 := by decide +kernel
theorem test_fcmulW_1 :
    after (exec (.fcmulW 1 2 3) (vectors 0x4080000040400000400000003F800000#128 0x3F800000000000004080000040400000#128
      0#128 0#128)) (readWr · 1) = some 0x40400000C080000041200000C0A00000#128 := by decide +kernel
theorem test_fcmulW_4 :
    after (exec (.fcmulW 1 2 3) (vectors 0x80000000FF000000000000007F000000#128 0x00000000408000000000000040800000#128
      0#128 0#128)) (readWr · 1) = some 0x80000000FF7FFFFF000000007F7FFFFF#128 := by decide +kernel
theorem test_fexuprcW_25 :
    after (exec (.fexuprcW 1 2 3) (vectors 0xAAAAAAAAAAAAAAAA00803F80C0003C00#128 0x000000000000000007F807F800F500F5#128
      0#128 0#128)) (readWr · 1) = some 0x008000003F800000C00000003F800000#128 := by decide +kernel
theorem test_addslH_1 :
    after (exec (.addslH 1 2 3) (vectors 0x807FFF010280FE7F7F8001FF80027FFE#128 0x8001FF7F038002817F80FF017F0380FE#128
      0#128 0#128)) (readWr · 1) = some 0xFF000080FFFE00800005FF0000000000#128 := by decide +kernel
theorem test_addslW_2 :
    after (exec (.addslW 1 2 3) (vectors 0x807FFF010280FE7F7F8001FF80027FFE#128 0x8001FF7F038002817F80FF017F0380FE#128
      0#128 0#128)) (readWr · 1) = some 0xFFFF0080FFFFFE800000060000000100#128 := by decide +kernel
theorem test_addsrH_3 :
    after (exec (.addsrH 1 2 3) (vectors 0x807FFF010280FE7F7F8001FF80027FFE#128 0x8001FF7F038002817F80FF017F0380FE#128
      0#128 0#128)) (readWr · 1) = some 0x00FEFF0000000000FFFF0005FFFFFFFC#128 := by decide +kernel
theorem test_addsrW_4 :
    after (exec (.addsrW 1 2 3) (vectors 0x807FFF010280FE7F7F8001FF80027FFE#128 0x8001FF7F038002817F80FF017F0380FE#128
      0#128 0#128)) (readWr · 1) = some 0x0000FF0000000100FFFFFF05000000FC#128 := by decide +kernel
theorem test_addulH_5 :
    after (exec (.addulH 1 2 3) (vectors 0x807FFF010280FE7F7F8001FF80027FFE#128 0x8001FF7F038002817F80FF017F0380FE#128
      0#128 0#128)) (readWr · 1) = some 0x0100008001FE00800005010001000100#128 := by decide +kernel
theorem test_addulW_6 :
    after (exec (.addulW 1 2 3) (vectors 0x807FFF010280FE7F7F8001FF80027FFE#128 0x8001FF7F038002817F80FF017F0380FE#128
      0#128 0#128)) (readWr · 1) = some 0x000100800001FE800000060000010100#128 := by decide +kernel
theorem test_addurH_7 :
    after (exec (.addurH 1 2 3) (vectors 0x807FFF010280FE7F7F8001FF80027FFE#128 0x8001FF7F038002817F80FF017F0380FE#128
      0#128 0#128)) (readWr · 1) = some 0x00FE01000100010000FF000500FF01FC#128 := by decide +kernel
theorem test_addurW_8 :
    after (exec (.addurW 1 2 3) (vectors 0x807FFF010280FE7F7F8001FF80027FFE#128 0x8001FF7F038002817F80FF017F0380FE#128
      0#128 0#128)) (readWr · 1) = some 0x0000FF00000101000000FF05000100FC#128 := by decide +kernel
theorem test_subslH_17 :
    after (exec (.subslH 1 2 3) (vectors 0x807FFF010280FE7F7F8001FF80027FFE#128 0x8001FF7F038002817F80FF017F0380FE#128
      0#128 0#128)) (readWr · 1) = some 0x0000007E0000FF82FFFF0000FFFC00FE#128 := by decide +kernel
theorem test_subslW_18 :
    after (exec (.subslW 1 2 3) (vectors 0x807FFF010280FE7F7F8001FF80027FFE#128 0x8001FF7F038002817F80FF017F0380FE#128
      0#128 0#128)) (readWr · 1) = some 0x0000007EFFFFFF82FFFFFF00FFFFFBFE#128 := by decide +kernel
theorem test_subsrH_19 :
    after (exec (.subsrH 1 2 3) (vectors 0x807FFF010280FE7F7F8001FF80027FFE#128 0x8001FF7F038002817F80FF017F0380FE#128
      0#128 0#128)) (readWr · 1) = some 0x000000000002FFFEFF01FFFF00FF0000#128 := by decide +kernel
theorem test_subsrW_20 :
    after (exec (.subsrW 1 2 3) (vectors 0x807FFF010280FE7F7F8001FF80027FFE#128 0x8001FF7F038002817F80FF017F0380FE#128
      0#128 0#128)) (readWr · 1) = some 0x00000000000002FEFFFF00FF0000FF00#128 := by decide +kernel
theorem test_subulH_21 :
    after (exec (.subulH 1 2 3) (vectors 0x807FFF010280FE7F7F8001FF80027FFE#128 0x8001FF7F038002817F80FF017F0380FE#128
      0#128 0#128)) (readWr · 1) = some 0x0000007E0000FF82FFFF000000FCFFFE#128 := by decide +kernel
theorem test_subulW_22 :
    after (exec (.subulW 1 2 3) (vectors 0x807FFF010280FE7F7F8001FF80027FFE#128 0x8001FF7F038002817F80FF017F0380FE#128
      0#128 0#128)) (readWr · 1) = some 0x0000007EFFFFFF82FFFFFF000000FBFE#128 := by decide +kernel
theorem test_suburH_23 :
    after (exec (.suburH 1 2 3) (vectors 0x807FFF010280FE7F7F8001FF80027FFE#128 0x8001FF7F038002817F80FF017F0380FE#128
      0#128 0#128)) (readWr · 1) = some 0x00000000FF0200FE0001FFFFFFFF0000#128 := by decide +kernel
theorem test_suburW_24 :
    after (exec (.suburW 1 2 3) (vectors 0x807FFF010280FE7F7F8001FF80027FFE#128 0x8001FF7F038002817F80FF017F0380FE#128
      0#128 0#128)) (readWr · 1) = some 0x00000000FFFF02FE000000FFFFFFFF00#128 := by decide +kernel
theorem test_mulslH_25 :
    after (exec (.mulslH 1 2 3) (vectors 0x807FFF010280FE7F7F8001FF80027FFE#128 0x8001FF7F038002817F80FF017F0380FE#128
      0#128 0#128)) (readWr · 1) = some 0x4000007F0001007F00064000FFFCC0FF#128 := by decide +kernel
theorem test_mulslW_26 :
    after (exec (.mulslW 1 2 3) (vectors 0x807FFF010280FE7F7F8001FF80027FFE#128 0x8001FF7F038002817F80FF017F0380FE#128
      0#128 0#128)) (readWr · 1) = some 0x3FC0007F0000807F0008C000FFFC3BFF#128 := by decide +kernel
theorem test_mulsrH_27 :
    after (exec (.mulsrH 1 2 3) (vectors 0x807FFF010280FE7F7F8001FF80027FFE#128 0x8001FF7F038002817F80FF017F0380FE#128
      0#128 0#128)) (readWr · 1) = some 0x3F014000FFFFFFFFC0800006C0800004#128 := by decide +kernel
theorem test_mulsrW_28 :
    after (exec (.mulsrW 1 2 3) (vectors 0x807FFF010280FE7F7F8001FF80027FFE#128 0x8001FF7F038002817F80FF017F0380FE#128
      0#128 0#128)) (readWr · 1) = some 0x3F804000FFFE02FFC07F7E06C07FFE04#128 := by decide +kernel
theorem test_mululH_29 :
    after (exec (.mululH 1 2 3) (vectors 0x807FFF010280FE7F7F8001FF80027FFE#128 0x8001FF7F038002817F80FF017F0380FE#128
      0#128 0#128)) (readWr · 1) = some 0x4000007FFE01007F0006400001FC3FFF#128 := by decide +kernel
theorem test_mululW_30 :
    after (exec (.mululW 1 2 3) (vectors 0x807FFF010280FE7F7F8001FF80027FFE#128 0x8001FF7F038002817F80FF017F0380FE#128
      0#128 0#128)) (readWr · 1) = some 0x4040007FFE80807F0008C000027D3BFF#128 := by decide +kernel
theorem test_mulurH_31 :
    after (exec (.mulurH 1 2 3) (vectors 0x807FFF010280FE7F7F8001FF80027FFE#128 0x8001FF7F038002817F80FF017F0380FE#128
      0#128 0#128)) (readWr · 1) = some 0x3F01400000FF00FF3F8000063F80FC04#128 := by decide +kernel
theorem test_mulurW_32 :
    after (exec (.mulurW 1 2 3) (vectors 0x807FFF010280FE7F7F8001FF80027FFE#128 0x8001FF7F038002817F80FF017F0380FE#128
      0#128 0#128)) (readWr · 1) = some 0x3F80400001FD02FF3F827E06407DFE04#128 := by decide +kernel
theorem test_sllV_19 :
    after (exec (.sllV 1 2 3) (vectors 0x80000000000000000000000000000001#128 0x00000000000000000000000000000000#128
      0#128 0#128)) (readWr · 1) = some 0x80000000000000000000000000000001#128 := by decide +kernel
theorem test_sllV_23 :
    after (exec (.sllV 1 2 3) (vectors 0x80000000000000000000000000000001#128 0x000000000000000000000000FFFFFF85#128
      0#128 0#128)) (readWr · 1) = some 0x00000000000000000000000000000020#128 := by decide +kernel
theorem test_bmuV_15 :
    after (exec (.bmuV 1 2 3) (vectors 0x00000000000000000000000000005A5A#128 0x0000000000000000000000000000000F#128
      0xDEADBEEF00000000000000000000FFFF#128 0#128)) (readWr · 1) = some 0xDEADBEEF000000000000000000005A5A#128 := by decide +kernel
theorem test_bmuV_17 :
    after (exec (.bmuV 1 2 3) (vectors 0x00000000000000000000000000005A5A#128 0x00000000000000000000000000000010#128
      0xDEADBEEF00000000000000000000FFFF#128 0#128)) (readWr · 1) = some 0xDEADBEEF00000000000000000000FFFE#128 := by decide +kernel
theorem test_srlV_24 :
    after (exec (.srlV 1 2 3) (vectors 0x80000000000000000000000000000001#128 0x00000000000000000000000000000000#128
      0#128 0#128)) (readWr · 1) = some 0x80000000000000000000000000000001#128 := by decide +kernel
theorem test_srlV_27 :
    after (exec (.srlV 1 2 3) (vectors 0x80000000000000000000000000000001#128 0x00000000000000000000000000000080#128
      0#128 0#128)) (readWr · 1) = some 0x80000000000000000000000000000001#128 := by decide +kernel
theorem test_satssB_1 :
    after (exec (.satssB 1 2 3) (vectors 0x7FFF80000080FF7F007FFF800100FEFF#128 0x0000FFFF000100FF010080017F001234#128
      0#128 0#128)) (readWr · 1) = some 0x7F807F807F807F8000FF017F7F807F7F#128 := by decide +kernel
theorem test_satssH_2 :
    after (exec (.satssH 1 2 3) (vectors 0x7FFFFFFF8000000000008000FFFF7FFF#128 0x00007FFFFFFF800000010000FFFEFFFF#128
      0#128 0#128)) (readWr · 1) = some 0x7FFF80007FFF80007FFF80007FFF8000#128 := by decide +kernel
theorem test_satuuB_5 :
    after (exec (.satuuB 1 2 3) (vectors 0x7FFF80000080FF7F007FFF800100FEFF#128 0x0000FFFF000100FF010080017F001234#128
      0#128 0#128)) (readWr · 1) = some 0xFFFF80FF7FFFFFFF00FF01FFFFFFFFFF#128 := by decide +kernel
theorem test_satuuH_6 :
    after (exec (.satuuH 1 2 3) (vectors 0x7FFFFFFF8000000000008000FFFF7FFF#128 0x00007FFFFFFF800000010000FFFEFFFF#128
      0#128 0#128)) (readWr · 1) = some 0xFFFFFFFF8000FFFF7FFFFFFFFFFFFFFF#128 := by decide +kernel
theorem test_satusB_3 :
    after (exec (.satusB 1 2 3) (vectors 0x7FFF80000080FF7F007FFF800100FEFF#128 0x0000FFFF000100FF010080017F001234#128
      0#128 0#128)) (readWr · 1) = some 0xFF0080007F00FF00000001FFFF00FFFF#128 := by decide +kernel
theorem test_satusH_4 :
    after (exec (.satusH 1 2 3) (vectors 0x7FFFFFFF8000000000008000FFFF7FFF#128 0x00007FFFFFFF800000010000FFFEFFFF#128
      0#128 0#128)) (readWr · 1) = some 0xFFFF0000800000007FFF0000FFFF0000#128 := by decide +kernel
theorem test_movbtB_32 :
    after (exec (.movbtB 1 2 3) (vectors 0x00112233445566778899AABBCCDDEEFF#128 0x00000000000000000000000000008421#128
      0#128 0#128)) (readWr · 1) = some 0x0000000000000000000000000055AAFF#128 := by decide +kernel
theorem test_movbpB_33 :
    after (exec (.movbpB 1 2 3) (vectors 0x00112233445566778899AABBCCDDEEFF#128 0x00000000000000000000000000008421#128
      0#128 0#128)) (readWr · 1) = some 0xCC00000000DD00000000EE00000000FF#128 := by decide +kernel
theorem test_movbpB_35 :
    after (exec (.movbpB 1 2 3) (vectors 0x00112233445566778899AABBCCDDEEFF#128 0xFFFF#128
      0#128 0#128)) (readWr · 1) = some 0x00112233445566778899AABBCCDDEEFF#128 := by decide +kernel
theorem test_moveW_1 :
    after (exec (.moveW 1 3 2 0) (vectors 0xA3A3A3A3A2A2A2A2A1A1A1A1A0A0A0A0#128 0#128
      0x00112233445566778899AABBCCDDEEFF#128 0#128)) (readWr · 1) = some 0xA0A0A0A0445566778899AABBCCDDEEFF#128 := by decide +kernel
theorem test_moveW_5 :
    after (exec (.moveW 1 0 1 3) (vectors 0x00112233445566778899AABBCCDDEEFF#128 0#128
      0x00112233445566778899AABBCCDDEEFF#128 0#128)) (readWr · 1) = some 0x00112233445566778899AABB00112233#128 := by decide +kernel
theorem test_vsldiB_5 :
    after (exec (.vsldiB 1 2 3 0) (vectors 0x1F1E1D1C1B1A19181716151413121110#128 0x0F0E0D0C0B0A09080706050403020100#128
      0#128 0#128)) (readWr · 1) = some 0x1F1E1D1C1B1A19181716151413121110#128 := by decide +kernel
theorem test_vsldiB_9 :
    after (exec (.vsldiB 1 2 2 4) (vectors 0x1F1E1D1C1B1A19181716151413121110#128 0x1F1E1D1C1B1A19181716151413121110#128
      0#128 0#128)) (readWr · 1) = some 0x131211101F1E1D1C1B1A191817161514#128 := by decide +kernel
theorem test_pcntV_4 :
    after (exec (.pcntV 1 2) (vectors 0x00112233445566778899AABBCCDDEEFF#128 0#128
      0#128 0#128)) (readWr · 1) = some 0x00000000000000000000000000000040#128 := by decide +kernel
theorem test_pcntV_6 :
    after (exec (.pcntV 1 2) (vectors 0xFFFFFFFFFFFFFFFFFFFFFFFFFFFFFFFF#128 0#128
      0#128 0#128)) (readWr · 1) = some 0x00000000000000000000000000000080#128 := by decide +kernel
theorem test_slliV_28 :
    after (exec (.slliV 1 2 0) (vectors 0x00112233445566778899AABBCCDDEEFF#128 0#128
      0#128 0#128)) (readWr · 1) = some 0x00112233445566778899AABBCCDDEEFF#128 := by decide +kernel
theorem test_slliV_29 :
    after (exec (.slliV 1 2 31) (vectors 0x00112233445566778899AABBCCDDEEFF#128 0#128
      0#128 0#128)) (readWr · 1) = some 0xA22AB33BC44CD55DE66EF77F80000000#128 := by decide +kernel
theorem test_srliV_30 :
    after (exec (.srliV 1 2 0) (vectors 0x00112233445566778899AABBCCDDEEFF#128 0#128
      0#128 0#128)) (readWr · 1) = some 0x00112233445566778899AABBCCDDEEFF#128 := by decide +kernel
theorem test_srliV_31 :
    after (exec (.srliV 1 2 31) (vectors 0x00112233445566778899AABBCCDDEEFF#128 0#128
      0#128 0#128)) (readWr · 1) = some 0x000000000022446688AACCEF11335577#128 := by decide +kernel
theorem test_bextB_7 :
    after (exec (.bextB 1 2) (vectors 0x80FF7F0001FE8000C3A55A3C0FF00180#128 0#128
      0#128 0#128)) (readWr · 1) = some 0x0000000000000000000000000000C6C5#128 := by decide +kernel
theorem test_bextH_8 :
    after (exec (.bextH 1 2) (vectors 0x80FF7F0001FE8000C3A55A3C0FF00180#128 0#128
      0#128 0#128)) (readWr · 1) = some 0x00000000000000000000000000000098#128 := by decide +kernel
theorem test_bextW_9 :
    after (exec (.bextW 1 2) (vectors 0x80FF7F0001FE8000C3A55A3C0FF00180#128 0#128
      0#128 0#128)) (readWr · 1) = some 0x0000000000000000000000000000000A#128 := by decide +kernel
theorem test_bexpB_10 :
    after (exec (.bexpB 1 2) (vectors 0xFFFFFFFFFFFFFFFFFFFFFFFFFFFFA5C3#128 0#128
      0#128 0#128)) (readWr · 1) = some 0xFF00FF0000FF00FFFFFF00000000FFFF#128 := by decide +kernel
theorem test_bexpH_11 :
    after (exec (.bexpH 1 2) (vectors 0xFFFFFFFFFFFFFFFFFFFFFFFFFFFFA5C3#128 0#128
      0#128 0#128)) (readWr · 1) = some 0xFFFFFFFF0000000000000000FFFFFFFF#128 := by decide +kernel
theorem test_bexpW_12 :
    after (exec (.bexpW 1 2) (vectors 0xFFFFFFFFFFFFFFFFFFFFFFFFFFFFA5C3#128 0#128
      0#128 0#128)) (readWr · 1) = some 0x0000000000000000FFFFFFFFFFFFFFFF#128 := by decide +kernel
theorem test_bexp2B_13 :
    after (exec (.bexp2B 1 2) (vectors 0xFFFFFFFFFFFFFFFFFFFFFFFFFFFFA5C3#128 0#128
      0#128 0#128)) (readWr · 1) = some 0xFFFFFFFFFFFFFFFFFFFFFFFFCC33F00F#128 := by decide +kernel
theorem test_bexp4B_14 :
    after (exec (.bexp4B 1 2) (vectors 0xFFFFFFFFFFFFFFFFFFFFFFFFFFFFA5C3#128 0#128
      0#128 0#128)) (readWr · 1) = some 0xFFFFFFFFFFFFFFFFF0F00F0FFF0000FF#128 := by decide +kernel
theorem test_acculH_13 :
    after (exec (.acculH 1 2) (vectors 0x807FFF010280FE7F7F8001FF80027FFE#128 0x8001FF7F038002817F80FF017F0380FE#128
      0x7FFF8000FFFF00017FFF8000FFFF0001#128 0#128)) (readWr · 1) = some 0x807F807F00FE00028001808000FD0080#128 := by decide +kernel
theorem test_acculW_14 :
    after (exec (.acculW 1 2) (vectors 0x807FFF010280FE7F7F8001FF80027FFE#128 0x8001FF7F038002817F80FF017F0380FE#128
      0x7FFFFFFFFFFFFFFF8000000000000001#128 0#128)) (readWr · 1) = some 0x8000807E0000FF00800002800000FE80#128 := by decide +kernel
theorem test_accurH_15 :
    after (exec (.accurH 1 2) (vectors 0x807FFF010280FE7F7F8001FF80027FFE#128 0x8001FF7F038002817F80FF017F0380FE#128
      0x7FFF8000FFFF00017FFF8000FFFF0001#128 0#128)) (readWr · 1) = some 0x807E808000000100807F8002007E00FF#128 := by decide +kernel
theorem test_accurW_16 :
    after (exec (.accurW 1 2) (vectors 0x807FFF010280FE7F7F8001FF80027FFE#128 0x8001FF7F038002817F80FF017F0380FE#128
      0x7FFFFFFFFFFFFFFF8000000000000001#128 0#128)) (readWr · 1) = some 0x80007F7F000001FE8000800200007FFF#128 := by decide +kernel
theorem test_accslH_9 :
    after (exec (.accslH 1 2) (vectors 0x807FFF010280FE7F7F8001FF80027FFE#128 0x8001FF7F038002817F80FF017F0380FE#128
      0x7FFF8000FFFF00017FFF8000FFFF0001#128 0#128)) (readWr · 1) = some 0x7F7F807FFFFE000280017F80FFFD0080#128 := by decide +kernel
theorem test_accslW_10 :
    after (exec (.accslW 1 2) (vectors 0x807FFF010280FE7F7F8001FF80027FFE#128 0x8001FF7F038002817F80FF017F0380FE#128
      0x7FFFFFFFFFFFFFFF8000000000000001#128 0#128)) (readWr · 1) = some 0x7FFF807EFFFFFF0080000280FFFFFE80#128 := by decide +kernel
theorem test_accsrH_11 :
    after (exec (.accsrH 1 2) (vectors 0x807FFF010280FE7F7F8001FF80027FFE#128 0x8001FF7F038002817F80FF017F0380FE#128
      0x7FFF8000FFFF00017FFF8000FFFF0001#128 0#128)) (readWr · 1) = some 0x807E7F80000000007F7F8002007EFFFF#128 := by decide +kernel
theorem test_accsrW_12 :
    after (exec (.accsrW 1 2) (vectors 0x807FFF010280FE7F7F8001FF80027FFE#128 0x8001FF7F038002817F80FF017F0380FE#128
      0x7FFFFFFFFFFFFFFF8000000000000001#128 0#128)) (readWr · 1) = some 0x80007F7F000001FE7FFF800200007FFF#128 := by decide +kernel
theorem test_vshfrB_1 :
    after (exec (.vshfrB 1 2 3 4) (vectors 0x1F1E1D1C1B1A19181716151413121110#128 0x0F0E0D0C0B0A09080706050403020100#128
      0#128 0x40803F201F100F00FFC07F1011000120#128)) (readWr · 1) = some 0x00001F001F100F000000001011000100#128 := by decide +kernel
theorem test_vshfrB_4 :
    after (exec (.vshfrB 1 2 3 1) (vectors 0x1F1E1D1C1B1A19181716151413121110#128 0x0F0E0D0C0B0A09080706050403020100#128
      0x40803F201F100F00FFC07F1011000120#128 0x40803F201F100F00FFC07F1011000120#128)) (readWr · 1) = some 0x00001F001F100F000000001011000100#128 := by decide +kernel
theorem test_bmrV_1 :
    after (exec (.bmrV 1 2 3 4) (vectors 0x00112233445566778899AABBCCDDEEFF#128 0xFFEEDDCCBBAA99887766554433221100#128
      0#128 0xFFFF0000FF00FF00F0F0F0F0AAAAAAAA#128)) (readWr · 1) = some 0x0011DDCC44AA66888796A5B49988BBAA#128 := by decide +kernel
theorem test_bmrV_3 :
    after (exec (.bmrV 1 2 3 4) (vectors 0x00112233445566778899AABBCCDDEEFF#128 0xFFEEDDCCBBAA99887766554433221100#128
      0#128 0xFFFFFFFFFFFFFFFFFFFFFFFFFFFFFFFF#128)) (readWr · 1) = some 0x00112233445566778899AABBCCDDEEFF#128 := by decide +kernel

/-! ## Results of one load or store (V44) -/

theorem test_ldinsW_first : after (exec (.ldinsW 1 0 5 4) (bytes64))
    (fun t => (readWr t 1, t.pc)) =
      some ((0x00112233445566778899AABB13121110#128, 0xBFC00004#64)) := by decide +kernel
theorem test_ldinsW_misaligned : after (exec (.ldinsW 1 0 5 4) (writeGpr bytes64 5 0x12))
    (fun t => (causeExcCode t, t.badVAddr, t.epc, statusEXL t)) =
      some ((0x04#5, 0x00001012#64, 0xBFC00000#64, true)) := by decide +kernel
theorem test_ldinsD_high : after (exec (.ldinsD 1 1 5 4) (bytes64))
    (fun t => (readWr t 1, t.pc)) =
      some ((0x17161514131211108899AABBCCDDEEFF#128, 0xBFC00004#64)) := by decide +kernel
theorem test_ldinsD_misaligned : after (exec (.ldinsD 1 1 5 4) (writeGpr bytes64 5 0x14))
    (fun t => (causeExcCode t, t.badVAddr)) =
      some ((0x04#5, 0x00001014#64)) := by decide +kernel
theorem test_ldinsuW_doubled : after (exec (.ldinsuW 1 2 4 4) (writeGpr bytes64 4 0x810))
    (fun t => (readWr t 1, readGpr t 4)) =
      some ((0x00112233232221208899AABBCCDDEEFF#128, 0x00001020#64)) := by decide +kernel
theorem test_ldinsuW_base_zero : after (exec (.ldinsuW 1 0 4 0) (bytes64))
    (fun t => (elem 32 (readWr t 1) 0, readGpr t 0)) =
      some ((0x03020100#32, 0#64)) := by decide +kernel
theorem test_ldinsuD : after (exec (.ldinsuD 1 0 5 4) (bytes64))
    (fun t => (readWr t 1, readGpr t 4)) =
      some ((0x00112233445566771716151413121110#128, 0x00001010#64)) := by decide +kernel
theorem test_ldinsuD_misaligned : after (exec (.ldinsuD 1 0 5 4) (writeGpr bytes64 5 0xC))
    (fun t => (causeExcCode t, t.badVAddr, readGpr t 4)) =
      some ((0x04#5, 0x0000100C#64, 0x1000#64)) := by decide +kernel
theorem test_ldinssW_lowest : after (exec (.ldinssW 1 0 5 4) (writeGpr bytes64 5 0))
    (fun t => elem 32 (readWr t 1) 0) =
      some (0x07060504#32) := by decide +kernel
theorem test_ldinssW_not_wrapping :
    after (exec (.ldinssW 1 1 5 4) ({ writeGpr (writeGpr bytes64 4 0xE10) 5 0xFF00 with params := { defaultParams with sparseIncWraps := false } }))
    (fun t => elem 32 (readWr t 1) 1) =
      some (0x13121110#32) := by decide +kernel
theorem test_ldinssuW : after (exec (.ldinssuW 1 0 5 4) (writeGpr bytes64 5 3))
    (fun t => (elem 32 (readWr t 1) 0, readGpr t 4)) =
      some ((0x13121110#32, 0x1010#64)) := by decide +kernel
theorem test_ldinssuW_wrapping :
    after (exec (.ldinssuW 1 0 5 4) ({ writeGpr (writeGpr bytes64 4 0x1010) 5 0xFF with params := { defaultParams with sparseIncWraps := true } }))
    (fun t => elem 32 (readWr t 1) 0) =
      some (0x13121110#32) := by decide +kernel
theorem test_ldinssu2W_seven : after (exec (.ldinssu2W 1 7 5 4) (writeGpr bytes64 5 0xF0000000))
    (fun t => (readWr t 1, readGpr t 4)) =
      some ((0x1F1E1D1C445566778899AABBCCDDEEFF#128, 0x101C#64)) := by decide +kernel
theorem test_ldinssu2W_misaligned : after (exec (.ldinssu2W 1 1 5 4) (writeGpr (writeGpr bytes64 4 0x1003) 5 0x20))
    (fun t => (causeExcCode t, t.badVAddr)) =
      some ((0x04#5, 0x1007#64)) := by decide +kernel
theorem test_stextW : after (exec (.stextW 1 3 5 4) (bytes64))
    (fun t => memBytes t.mem 0x1010#64 4) =
      some (some [0x33, 0x22, 0x11, 0x00]) := by decide +kernel
theorem test_stextW_big :
    after (exec (.stextW 1 0 5 4) ({ bytes64 with params := { defaultParams with endian := .big } }))
    (fun t => memBytes t.mem 0x1010#64 4) =
      some (some [0xCC, 0xDD, 0xEE, 0xFF]) := by decide +kernel
theorem test_stextD : after (exec (.stextD 1 1 5 4) (bytes64))
    (fun t => memBytes t.mem 0x1010#64 8) =
      some (some [0x77, 0x66, 0x55, 0x44, 0x33, 0x22, 0x11, 0x00]) := by decide +kernel
theorem test_stextD_misaligned : after (exec (.stextD 1 1 5 4) (writeGpr bytes64 5 0x14))
    (fun t => (causeExcCode t, t.badVAddr, decide (t.mem = bytes64.mem))) =
      some ((0x05#5, 0x1014#64, true)) := by decide +kernel
theorem test_stextuW_wraps : after (exec (.stextuW 1 2 4) (writeGpr bytes64 4 0xFFFFFFFC))
    (fun t => (readGpr t 4, memBytes t.mem 0#64 4)) =
      some ((0#64, some [0x77, 0x66, 0x55, 0x44])) := by decide +kernel
theorem test_stextuW_misaligned : after (exec (.stextuW 1 2 4) (writeGpr bytes64 4 0x1002))
    (fun t => (causeExcCode t, t.badVAddr, readGpr t 4)) =
      some ((0x05#5, 0x1006#64, 0x1002#64)) := by decide +kernel
theorem test_stextuD : after (exec (.stextuD 1 0 4) (bytes64))
    (fun t => (readGpr t 4, memBytes t.mem 0x1008#64 8)) =
      some ((0x1008#64, some [0xFF, 0xEE, 0xDD, 0xCC, 0xBB, 0xAA, 0x99, 0x88])) := by decide +kernel

/-! ## `GPRLEN`: sums modulo 2^32 and modulo 2^64 (R70) -/

/-- `bytes64` with registers of 64 bits. -/
def wide : State := { bytes64 with params := { defaultParams with gprLen := .w64 } }

theorem test_sum_modulo_32 : (addrIndexed (writeGpr bytes64 4 0xFFFFFFFC) 4 5, (nextPc { bytes64 with pc := 0xFFFFFFFC }))
    = (0x0000000C#64, 0#64) := by decide +kernel
theorem test_sum_modulo_64 : (addrIndexed (writeGpr wide 4 0xFFFFFFFC) 4 5, (nextPc { wide with pc := 0xFFFFFFFC }),
    addrNext (writeGpr wide 4 0xFFFFFFFFFFFFFFF8) 4 8) = (0x10000000C#64, 0x100000000#64, 0#64) := by decide +kernel
theorem test_stextuD_wide : after (exec (.stextuD 1 0 4)
      { writeGpr wide 4 0xFFFFFFF8 with launchMemory := [⟨0, 2 ^ 33, .memory⟩] })
    (fun t => (readGpr t 4, memBytes t.mem 0x100000000#64 8)) =
      some ((0x100000000#64, some [0xFF, 0xEE, 0xDD, 0xCC, 0xBB, 0xAA, 0x99, 0x88])) := by decide +kernel

/-! ## The first step after reset, and the end of a run -/

theorem test_reset_runs : (after (step (State.reset.withFetchWord 32 0x4A231041)) (·.pc)) = some 0xBFC00004#64 := by
  decide +kernel
theorem test_reset_stores : (after (step (State.reset.withFetchWord 32 0x4AC42873)) (·.mem.length)) = some 8 := by
  decide +kernel
theorem test_reset_empty :
    (match step State.reset with
      | .fault f => some f
      | .next _ => none
      | .refused _ => none) = some .runDone := by decide +kernel

/-- A reserved word in the text: Reserved Instruction is taken, and the step after it answers Trap with the code and
EPC (R359, R409 b). -/
theorem test_trap_ends_run :
    (match step (State.reset.withFetchWord 32 0x4A031047) with
      | .next t => (match step t with
        | .fault f => some f
        | .next _ => none
        | .refused _ => none)
      | .fault _ => none
      | .refused _ => none) = some (.runTrap ⟨0x0a#5, 0xBFC00000#64, none⟩) := by decide +kernel
/-- A term infinite and the other overflowing against it: the largest number, of open sign (R156 a, d). -/
theorem test_fcmul_infinite_against_overflow :
    fcmulArith 0 0x7F800000 0x3F800000 0x7F000000 0x7F000000 true
      = fpPack (fpSign (Config.fcmulOpen 0 0x7F800000 0x3F800000 0x7F000000 0x7F000000 true)) 0xFF (BitVec.allOnes 23) := by
  rw [fcmulArith]
  exact if_pos (by decide +kernel)

/-! ## Witnesses: concrete inputs that meet the hypotheses of each statement -/

/-- An executing state with registers, 64 bytes of memory from 0x1000, parameters that evaluate, and a text at the pc. -/
def small : State :=
  { writeGpr (writeGpr (writeGpr (vectors 0x4080000040400000400000003F800000#128 0x3F800000000000004080000040400000#128
      0x00112233445566778899AABBCCDDEEFF#128 0x0F0E0D0C0B0A09080706050403020100#128) 4#5 0x1000#64) 5#5 0x10#64) 6#5
      0xFFFFFFF0#64 with
    mem := (List.range 64).map fun k => (0x1000 + k, BitVec.ofNat 8 k)
    pc := 0x2000#64
    params := { defaultParams with sparseIncWraps := true, genExcVector := 0x80000180#64, msairProcId := 1#8,
                                   msairVersion := 2#8 } }

/-- `small` with a word at its pc. -/
def running (w : Nat) : State := small.withFetchWord 32 w

/-- `small` with a translation table. -/
def mapped (rows : List TranslationRow) : State := { small with params := { small.params with translation := rows } }

theorem next_of {r : Result} (h : (after r fun _ => ()).isSome = true) : ∃ t, r = .next t := by
  cases r with
  | next t => exact ⟨t, rfl⟩
  | fault _ => cases h
  | refused _ => cases h

theorem witness_executes :
    executes State.reset = true ∧ executes small = true ∧ statusEXL small = false := by decide +kernel

theorem witness_VectorShiftImmediate : executes small = true ∧ 31 < 32 ∧ 0 < 32 := by decide +kernel

theorem witness_ExpandInvertsExtract : executes small = true ∧ (1#5 : VReg) ≠ 3#5 := by decide +kernel

theorem witness_Slide : executes small = true ∧ 0 < 16 ∧ 15 < 16 := by decide +kernel

theorem witness_MoveWord : executes small = true ∧ 0 < 4 ∧ 3 < 4 := by decide +kernel

theorem isSingle_of (x :
    Word) (v : ℚ) (h : isNormal x = true) (hv : singleValue x = v) : isSingle v := .inr ⟨x, h, hv⟩

theorem singleValue_of (x : Word) (b : Bool) (e f : Nat) (hb : fpSign x = b) (he : fpExp x = e) (hf : fpFrac x = f)
    (h0 : e ≠ 0) : singleValue x = (if b then -1 else 1) * (((2 ^ 23 + f : Nat) : ℚ) * 2 ^ ((e : ℤ) - 150)) := by
  subst hb he hf
  rw [singleValue, if_neg h0]

theorem operandValue_of (x : Word) (v : ℚ) (h0 : fpExp x ≠ 0) (h : singleValue x = v) : operandValue x = v := by
  rw [operandValue, if_neg h0, h]

theorem one_value : singleValue 0x3F800000#32 = 1 := by
  rw [singleValue_of _ false 127 0 (by decide +kernel) (by decide +kernel) (by decide +kernel) (by decide +kernel)]; norm_num
theorem two_value : singleValue 0x40000000#32 = 2 := by
  rw [singleValue_of _ false 128 0 (by decide +kernel) (by decide +kernel) (by decide +kernel) (by decide +kernel)]; norm_num
theorem three_value : singleValue 0x40400000#32 = 3 := by
  rw [singleValue_of _ false 128 0x400000 (by decide +kernel) (by decide +kernel) (by decide +kernel) (by decide +kernel)]; norm_num
theorem four_value : singleValue 0x40800000#32 = 4 := by
  rw [singleValue_of _ false 129 0 (by decide +kernel) (by decide +kernel) (by decide +kernel) (by decide +kernel)]; norm_num
theorem minus_five_value : singleValue 0xC0A00000#32 = -5 := by
  rw [singleValue_of _ true 129 0x200000 (by decide +kernel) (by decide +kernel) (by decide +kernel) (by decide +kernel)]; norm_num
theorem six_value : singleValue 0x40C00000#32 = 6 := by
  rw [singleValue_of _ false 129 0x400000 (by decide +kernel) (by decide +kernel) (by decide +kernel) (by decide +kernel)]; norm_num
theorem eight_value : singleValue 0x41000000#32 = 8 := by
  rw [singleValue_of _ false 130 0 (by decide +kernel) (by decide +kernel) (by decide +kernel) (by decide +kernel)]; norm_num
theorem ten_value : singleValue 0x41200000#32 = 10 := by
  rw [singleValue_of _ false 130 0x200000 (by decide +kernel) (by decide +kernel) (by decide +kernel) (by decide +kernel)]; norm_num
theorem big_value : operandValue 0x5F800000#32 = 2 ^ 64 := by
  refine operandValue_of _ _ (by decide +kernel) ?_
  rw [singleValue_of _ false 191 0 (by decide +kernel) (by decide +kernel) (by decide +kernel) (by decide +kernel)]; norm_num
theorem minus_big_value : operandValue 0xDF800000#32 = -2 ^ 64 := by
  refine operandValue_of _ _ (by decide +kernel) ?_
  rw [singleValue_of _ true 191 0 (by decide +kernel) (by decide +kernel) (by decide +kernel) (by decide +kernel)]; norm_num

/-- Both clauses: (1 + 2i)(3 + 4i) = -5 + 10i in element 0 of V40.1's operands, which `small` holds. -/
theorem witness_FcmulExact :
    executes small = true
      ∧ (readWr small 2#5).extractLsb' 0 64 = 0x40000000#32 ++ 0x3F800000#32
      ∧ (readWr small 3#5).extractLsb' 0 64 = 0x40800000#32 ++ 0x40400000#32
      ∧ operandValue 0x3F800000#32 * operandValue 0x40400000#32 = 3
      ∧ operandValue 0x40000000#32 * operandValue 0x40800000#32 = 8
      ∧ operandValue 0x3F800000#32 * operandValue 0x40800000#32 = 4
      ∧ operandValue 0x40000000#32 * operandValue 0x40400000#32 = 6
      ∧ isSingle 3 ∧ isSingle 8 ∧ isSingle (3 - 8) ∧ isSingle 4 ∧ isSingle 6 ∧ isSingle (4 + 6) := by
  have h1 := operandValue_of _ _ (by decide +kernel) one_value
  have h2 := operandValue_of _ _ (by decide +kernel) two_value
  have h3 := operandValue_of _ _ (by decide +kernel) three_value
  have h4 := operandValue_of _ _ (by decide +kernel) four_value
  refine ⟨by decide +kernel, by decide +kernel, by decide +kernel, ?_, ?_, ?_, ?_, isSingle_of _ _ (by decide +kernel) three_value,
    isSingle_of _ _ (by decide +kernel) eight_value, isSingle_of 0xC0A00000#32 _ (by decide +kernel) (by rw [minus_five_value]; norm_num),
    isSingle_of _ _ (by decide +kernel) four_value, isSingle_of _ _ (by decide +kernel) six_value,
    isSingle_of 0x41200000#32 _ (by decide +kernel) (by rw [ten_value]; norm_num)⟩ <;> norm_num [h1, h2, h3, h4]

/-- The five clauses: 2^64 * 2^64 and its negative with a zero term on either side, and subnormal and zero parts. -/
theorem witness_FcmulOverflowAndZero :
    maxSingle < operandValue 0x5F800000#32 * operandValue 0x5F800000#32
      ∧ operandValue 0xDF800000#32 * operandValue 0x5F800000#32 < -maxSingle
      ∧ -(operandValue 0x00000000#32 * operandValue 0x5F800000#32) = 0
      ∧ maxSingle < -(operandValue 0xDF800000#32 * operandValue 0x5F800000#32)
      ∧ -(operandValue 0x5F800000#32 * operandValue 0x5F800000#32) < -maxSingle
      ∧ fpExp 0x00000001#32 = 0 ∧ fpExp 0x807FFFFF#32 = 0 ∧ fpExp 0x80000000#32 = 0
      ∧ (true = (fpSign 0x80000000#32 ^^ fpSign 0x3F800000#32) ∧ true = !(fpSign 0x00000001#32 ^^ fpSign 0x3F800000#32)) := by
  have hz : operandValue 0x00000000#32 = 0 := by rw [operandValue, if_pos (by decide +kernel)]
  refine ⟨?_, ?_, ?_, ?_, ?_, by decide +kernel, by decide +kernel, by decide +kernel, by decide +kernel⟩ <;>
    norm_num [big_value, minus_big_value, hz, maxSingle]

/-- The valid control values of R211, as the statements say them. -/
def validControl (c : BitVec 16) : Bool :=
  decide (2 ≤ c.toNat % 16 ∧ c.toNat % 16 ≤ 7 ∧ c.toNat / 16 % 128 ≤ 2 ^ (c.toNat % 16) - 1)
    || decide (c.toNat % 16 = 8 ∧ c.toNat / 16 % 128 = 0x7F)

/-- Left half: 8 exponent bits and bias 0x7F, an XHS zero and exponents at -126, 127 and 0. Right half: control values
at the edges of the valid range. -/
def converting : State :=
  vectors 0x800000807F003F800000000000000000#128 0x07F807F8FFF807F80002003207F707F8#128 0#128 0#128

theorem witness_UpConvertValid :
    executes converting = true
      ∧ (List.range 8).all (fun k => validControl ((readWr converting 3#5).extractLsb' (16 * k) 16)) = true
      ∧ xhsExp ((readWr converting 2#5).extractLsb' (16 * 3 + 64) 16) 8 = 0
      ∧ xhsFrac ((readWr converting 2#5).extractLsb' (16 * 3 + 64) 16) 8 = 0
      ∧ (xhsExp ((readWr converting 2#5).extractLsb' (16 * 2 + 64) 16) 8 : Int) - 127 = -126
      ∧ (xhsExp ((readWr converting 2#5).extractLsb' (16 * 1 + 64) 16) 8 : Int) - 127 = 127 := by decide +kernel

/-- Control values just outside the valid range: 9 exponent bits, a bias past the largest, 8 bits with another bias, 1
exponent bit. -/
theorem witness_UpConvertInvalid :
    executes (vectors 0#128 0x000900420083000107E8000207F807F8#128 0#128 0#128) = true
      ∧ [7, 6, 5, 4, 3].all (fun k => !validControl ((readWr (vectors 0#128 0x000900420083000107E8000207F807F8#128
          0#128 0#128) 3#5).extractLsb' (16 * k) 16)) = true := by decide +kernel

theorem witness_LoadInsert :
    executes small = true ∧ loads small (addrIndexed small 4#5 5#5) 4 0x13121110#32
      ∧ loads small (addrIndexed small 4#5 5#5) 8 0x1716151413121110#64 :=
  ⟨by decide +kernel, ⟨by decide +kernel, by decide +kernel, checkAccess_of (by decide +kernel) (by decide +kernel) (by decide +kernel), by decide +kernel⟩, ⟨by decide +kernel, by decide +kernel, checkAccess_of (by decide +kernel) (by decide +kernel) (by decide +kernel), by decide +kernel⟩⟩

/-- The base update of base 0 is lost: a load whose base is `GPR[0]`. -/
theorem witness_LoadInsertUpdate :
    executes small = true ∧ loads small (addrIndexed small 0#5 4#5) 4 0x03020100#32
      ∧ loads small (addrIndexed small 0#5 4#5) 8 0x0706050403020100#64 :=
  ⟨by decide +kernel, ⟨by decide +kernel, by decide +kernel, checkAccess_of (by decide +kernel) (by decide +kernel) (by decide +kernel), by decide +kernel⟩, ⟨by decide +kernel, by decide +kernel, checkAccess_of (by decide +kernel) (by decide +kernel) (by decide +kernel), by decide +kernel⟩⟩

theorem witness_LoadSparse :
    executes small = true ∧ loads small (addrSparse small 4#5 5#5 0) 4 0x27262524#32
      ∧ loads small (addrSparseByte small 4#5 4#5 3) 4 0x07060504#32 :=
  ⟨by decide +kernel, ⟨by decide +kernel, by decide +kernel, checkAccess_of (by decide +kernel) (by decide +kernel) (by decide +kernel), by decide +kernel⟩, ⟨by decide +kernel, by decide +kernel, checkAccess_of (by decide +kernel) (by decide +kernel) (by decide +kernel), by decide +kernel⟩⟩

theorem witness_LoadSparseNibble :
    executes small = true ∧ 7 < 8 ∧ loads small (addrSparseNibble small 4#5 6#5 7) 4 0x1F1E1D1C#32 :=
  ⟨by decide +kernel, by decide +kernel, ⟨by decide +kernel, by decide +kernel, checkAccess_of (by decide +kernel) (by decide +kernel) (by decide +kernel), by decide +kernel⟩⟩

theorem witness_StoreExtract :
    executes small = true ∧ storesTo small (addrIndexed small 4#5 5#5) 4
      ∧ storesTo small (addrIndexed small 4#5 5#5) 8 :=
  ⟨by decide +kernel, ⟨by decide +kernel, by decide +kernel, checkAccess_of (by decide +kernel) (by decide +kernel) (by decide +kernel)⟩, ⟨by decide +kernel, by decide +kernel, checkAccess_of (by decide +kernel) (by decide +kernel) (by decide +kernel)⟩⟩

theorem witness_StoreExtractUpdate :
    executes small = true ∧ storesTo small (addrNext small 0#5 4) 4
      ∧ storesTo small (addrNext small 4#5 8) 8 :=
  ⟨by decide +kernel, ⟨by decide +kernel, by decide +kernel, checkAccess_of (by decide +kernel) (by decide +kernel) (by decide +kernel)⟩, ⟨by decide +kernel, by decide +kernel, checkAccess_of (by decide +kernel) (by decide +kernel) (by decide +kernel)⟩⟩

/-- Sparse fields at their largest value, 127 and 255 and 7. -/
theorem witness_EffectiveAddresses :
    (3 < 4 ∧ 127 = (readGpr small 6#5).toNat / 2 ^ (8 * 3 + 1) % 2 ^ 7)
      ∧ (3 < 4 ∧ 255 = (readGpr small 6#5).toNat / 2 ^ (8 * 3) % 2 ^ 8)
      ∧ (7 < 8 ∧ 7 = (readGpr small 6#5).toNat / 2 ^ (4 * 7 + 1) % 2 ^ 3) := by decide +kernel

/-- Addresses that miss their alignment by one and by four. -/
theorem witness_AddressErrorLoad :
    executes small = true ∧ statusEXL small = false
      ∧ (addrIndexed (writeGpr small 5#5 0x11#64) 4#5 5#5).toNat % 4 = 1
      ∧ (addrSparse (writeGpr small 4#5 0x1003#64) 4#5 5#5 0).toNat % 4 = 3
      ∧ (addrSparseByte (writeGpr small 4#5 0x1001#64) 4#5 5#5 3).toNat % 4 = 1
      ∧ (addrSparseNibble (writeGpr small 4#5 0x1002#64) 4#5 5#5 7).toNat % 4 = 2
      ∧ (addrIndexed (writeGpr small 5#5 0x14#64) 4#5 5#5).toNat % 8 = 4 := by decide +kernel

theorem witness_AddressErrorStore :
    executes small = true ∧ statusEXL small = false
      ∧ (addrIndexed (writeGpr small 5#5 0x11#64) 4#5 5#5).toNat % 4 = 1
      ∧ (addrNext (writeGpr small 4#5 0x1003#64) 4#5 4).toNat % 4 = 3
      ∧ (addrIndexed (writeGpr small 5#5 0x14#64) 4#5 5#5).toNat % 8 = 4
      ∧ (addrNext (writeGpr small 4#5 0x1004#64) 4#5 8).toNat % 8 = 4 := by decide +kernel

/-- A load and a store at 0x1010, and each of the five places where one of them stops. -/
theorem witness_AccessStops :
    accessOf small (.ldinsD 1#5 1 5#5 4#5) = some ⟨.load, 0x1010#64, 8⟩
      ∧ accessOf small (.stextD 1#5 1 5#5 4#5) = some ⟨.store, 0x1010#64, 8⟩
      ∧ translate (mapped [⟨.load, 0x1010#64, 1, none⟩]) .load 0x1010#64 = none
      ∧ translate (mapped [⟨.store, 0x1010#64, 1, none⟩]) .store 0x1010#64 = none
      ∧ (translate small .load 0x1010#64).isSome = true ∧ (translate small .store 0x1010#64).isSome = true
      ∧ 0x1017#64 ∈ span 0x1010#64 8
      ∧ inRegion { small with launchMemory := [⟨0x1017, 1, .device⟩] } .device 0x1017#64 = true
      ∧ inRegion { small with launchMemory := [⟨0x1000, 0x17, .memory⟩] } .memory 0x1017#64 = false
      ∧ (span 0x1010#64 8).all (fun a => !inRegion small .device a && inRegion small .memory a) = true
      ∧ inText { small with text := ⟨0x1014#64, 1⟩ } 0x1017#64 = true
      ∧ memGet (small.mem.filter fun c => c.1 != 0x1017) (0x1017#64).toNat = none := by decide +kernel

theorem witness_ReservedUnit :
    cu2Allows small = true ∧ statusEXL small = false
      ∧ ({ small with config3 := 0#32 } : State).config3.getLsbD 28 = false
      ∧ ({ small with status := 0x20000000#32 } : State).status.getLsbD 29 = true
      ∧ ({ small with status := 0x20000000#32 } : State).status.getLsbD 26 = false
      ∧ small.config3.getLsbD 28 = true ∧ small.status.getLsbD 29 = false
      ∧ ({ small with status := 0x24000000#32 } : State).status.getLsbD 26 = true := by decide +kernel

/-- `rs` of an instruction's word is never 11111. -/
theorem encode_rs_ne (i : Instr) : (encode i).extractLsb' 21 5 ≠ 0b11111#5 := by
  have h3F : ∀ a b c d e, (enc3RF a b c d e).extractLsb' 21 5 = 0b10000#5 := by
    intro a b c d e; unfold enc3RF; apply BitVec.eq_of_getLsbD_eq; intro k hk
    simp only [BitVec.getLsbD_extractLsb', BitVec.getLsbD_append]; interval_cases k <;> simp
  have h2 : ∀ a b c d e, (enc2R a b c d e).extractLsb' 21 5 = 0b11010#5 := by
    intro a b c d e; unfold enc2R; apply BitVec.eq_of_getLsbD_eq; intro k hk
    simp only [BitVec.getLsbD_extractLsb', BitVec.getLsbD_append]; interval_cases k <;> simp
  have h4 : ∀ a b c d e, (enc4R a b c d e).extractLsb' 21 5 = 0b11101#5 := by
    intro a b c d e; unfold enc4R; apply BitVec.eq_of_getLsbD_eq; intro k hk
    simp only [BitVec.getLsbD_extractLsb', BitVec.getLsbD_append]; interval_cases k <;> simp
  have h3 : ∀ r a b c d e, (enc3R r a b c d e).extractLsb' 21 5 = r := by
    intro r a b c d e; unfold enc3R; apply BitVec.eq_of_getLsbD_eq; intro k hk
    simp only [BitVec.getLsbD_extractLsb', BitVec.getLsbD_append]; interval_cases k <;> simp
  have he : ∀ r a b c d, (encElm r a b c d).extractLsb' 21 5 = r := by
    intro r a b c d; unfold encElm; apply BitVec.eq_of_getLsbD_eq; intro k hk
    simp only [BitVec.getLsbD_extractLsb', BitVec.getLsbD_append]; interval_cases k <;> simp
  cases i <;> simp only [encode, h3F, h2, h4, h3, he] <;> decide

/-- The reserved word with rs = 11111, and an ill-formed term. -/
theorem witness_ReservedEncodings :
    cu2Allows (running 0x4BE00000) = true ∧ statusEXL (running 0x4BE00000) = false ∧ fetches (running 0x4BE00000) 0x4BE00000#32
      ∧ (0x4BE00000#32).extractLsb' 26 6 = 0b010010#6 ∧ (0x4BE00000#32).getLsbD 25 = true
      ∧ (∀ i : Instr, i.wellFormed = true → encode i ≠ 0x4BE00000#32)
      ∧ Instr.wellFormed (.ldinssu2W 1#5 8 5#5 4#5) = false := by
  refine ⟨by decide +kernel, by decide +kernel, ⟨by decide +kernel, by decide +kernel, by decide +kernel, by decide +kernel⟩, by decide +kernel, by decide +kernel, ?_, by decide +kernel⟩
  intro i _ h
  exact encode_rs_ne i (by rw [h]; decide)

theorem witness_MxaDisabled :
    Instr.wellFormed (.pcntV 1#5 2#5) = true ∧ cu2Allows { small with config5 := 0#32 } = true
      ∧ riUnit { small with config5 := 0#32 } = false ∧ statusEXL { small with config5 := 0#32 } = false
      ∧ (msair { small with params := { small.params with msairWrp := true } }).getLsbD 16 = true
      ∧ small.config5.getLsbD 27 = true := by decide +kernel

theorem witness_PremiseRefusals :
    ({ small with params := { small.params with requireCU2 := true } } : State).status.getLsbD 30 = false
      ∧ cu2Allows { small with status := 2#32 } = true ∧ executes { small with status := 2#32 } = true
      ∧ riUnit { small with status := 2#32, config3 := 0#32 } = true
      ∧ msaEn { small with status := 2#32, config5 := 0#32 } = false
      ∧ accessOf (writeGpr { small with status := 2#32 } 5#5 0x12#64) (.ldinsW 1#5 0 5#5 4#5)
        = some ⟨.load, 0x1012#64, 4⟩ := by decide +kernel

/-- A completion, each of the four exceptions, and a store that completes. -/
theorem witness_WhichExceptions :
    (∃ t, exec (.addslH 1#5 2#5 3#5) small = .next t)
      ∧ (∃ t, exec (.addslH 1#5 2#5 3#5) { small with config3 := 0#32 } = .next t)
      ∧ (∃ t, exec (.addslH 1#5 2#5 3#5) { small with config5 := 0#32 } = .next t)
      ∧ (∃ t, exec (.ldinsW 1#5 0 5#5 4#5) (writeGpr small 5#5 1#64) = .next t)
      ∧ (∃ t, exec (.stextW 1#5 0 5#5 4#5) (writeGpr small 5#5 1#64) = .next t)
      ∧ (∃ t, exec (.stextuD 1#5 0 4#5) small = .next t)
      ∧ accessOf small (.stextuD 1#5 0 4#5) = some ⟨.store, 0x1008#64, 8⟩ :=
  ⟨next_of (by decide +kernel), next_of (by decide +kernel), next_of (by decide +kernel), next_of (by decide +kernel), next_of (by decide +kernel), next_of (by decide +kernel),
    by decide +kernel⟩

theorem witness_ExecutesExactlyWhen :
    Instr.wellFormed (.bmrV 1#5 2#5 3#5 4#5) = true ∧ accessOf small (.bmrV 1#5 2#5 3#5 4#5) = none
      ∧ cu2Allows small = true ∧ statusEXL small = false ∧ small.params.msairWrp = false
      ∧ small.config3.getLsbD 28 = true ∧ small.config5.getLsbD 27 = true
      ∧ ({ small with config5 := 0#32 } : State).config5.getLsbD 27 = false := by decide +kernel

/-- FCMUL.W and another instruction complete. -/
theorem witness_MsacsrKept :
    (∃ t, exec (.fcmulW 1#5 2#5 3#5) small = .next t) ∧ ∃ t, exec (.pcntV 1#5 2#5) small = .next t :=
  ⟨next_of (by decide +kernel), next_of (by decide +kernel)⟩

theorem witness_GprZero :
    (4#5 : GReg) ≠ 0#5 ∧ (effectOf (.ldinsuW 1#5 0 4#5 0#5)).gpr = some 0#5
      ∧ ∃ t, exec (.ldinsuW 1#5 0 4#5 0#5) small = .next t :=
  ⟨by decide +kernel, by decide +kernel, next_of (by decide +kernel)⟩

/-- A step that answers a next state, for the statements about every step. -/
theorem witness_step :
    Inv (running 0x4A231041) ∧ ∃ t, step (running 0x4A231041) = .next t := ⟨by decide +kernel, next_of (by decide +kernel)⟩

/-- A text byte, a device byte and a byte outside, in a state that steps. -/
theorem witness_OnlyLaunchMemoryWritten :
    inText (running 0x4A231041) 0x2003#64 = true
      ∧ inRegion { running 0x4A231041 with launchMemory := [⟨0x3000, 1, .device⟩] } .device 0x3000#64 = true
      ∧ inRegion { running 0x4A231041 with launchMemory := [⟨0x3000, 1, .device⟩] } .memory 0x3001#64 = false
      ∧ ∃ t, step { running 0x4A231041 with launchMemory := [⟨0x3000, 1, .device⟩] } = .next t :=
  ⟨by decide +kernel, by decide +kernel, by decide +kernel, next_of (by decide +kernel)⟩

/-- The last aligned addresses of each size, of 32 and of 64 bits. -/
theorem witness_MemoryBytes :
    (0xFFFFFFFC#64 : Addr).toNat % 4 = 0 ∧ (0xFFFFFFFFFFFFFFF8#64 : Addr).toNat % 8 = 0 ∧ 7 < 8
      ∧ (0xFFFFFFFFFFFFFFF8#64 : Addr).toNat + 8 ≤ 2 ^ 64 := by decide +kernel

theorem witness_MemoryReadAfterWrite :
    (0xFFFFFFF8#64 : Addr).toNat % 8 = 0 ∧ (0#64 : Addr).toNat % 8 = 0 ∧ (4#64 : Addr).toNat % 4 = 0 := by decide +kernel

/-- A word with rs = 11101. -/
theorem witness_DecodeVerdicts : (0x4BBFFFFF#32).extractLsb' 21 11 = 0b01001011101#11 := by decide +kernel

theorem witness_StepRunsInstruction :
    Instr.wellFormed (.addslH 1#5 2#5 3#5) = true ∧ fetches (running 0x4A231041) (encode (.addslH 1#5 2#5 3#5)) :=
  ⟨by decide +kernel, ⟨by decide +kernel, by decide +kernel, by decide +kernel, by decide +kernel⟩⟩

/-- The sixteen cells of rows 00 and 01 are fetched, and words with bits 31:26 just outside COP2. -/
theorem witness_OutsideWordsRefused :
    (∀ c : BitVec 4, fetches (running (0x48000000 + 0x200000 * c.toNat)) (BitVec.ofNat 32 (0x48000000 + 0x200000 * c.toNat)))
      ∧ (∀ c : BitVec 4, (BitVec.ofNat 32 (0x48000000 + 0x200000 * c.toNat)).extractLsb' 26 6 = 0b010010#6
        ∧ (BitVec.ofNat 32 (0x48000000 + 0x200000 * c.toNat)).extractLsb' 21 5 = 0#1 ++ c)
      ∧ fetches (running 0x47FFFFFF) 0x47FFFFFF#32 ∧ (0x47FFFFFF#32).extractLsb' 26 6 ≠ 0b010010#6
      ∧ fetches (running 0x4C000000) 0x4C000000#32 ∧ (0x4C000000#32).extractLsb' 26 6 ≠ 0b010010#6 := by
  unfold fetches
  decide

/-- The ways a run ends: an exception that was taken, and the others. -/
theorem witness_RunEnds :
    TookException 0x0a#5 none small (enterException small .reservedInstruction)
      ∧ (enterException small .reservedInstruction).trap = some ⟨0x0a#5, 0x2000#64, none⟩ ∧ small.trap = none
      ∧ ({ small with inDelaySlot := true } : State).inDelaySlot = true ∧ small.inDelaySlot = false
      ∧ ({ small with pc := 0x2001#64 } : State).pc.toNat % 4 ≠ 0
      ∧ inText { running 0 with pc := 0x2004#64 } 0x2004#64 = false ∧ 0x2004#64 = textEnd (running 0)
      ∧ inText { running 0 with pc := 0x2008#64 } 0x2008#64 = false ∧ 0x2008#64 ≠ textEnd (running 0) :=
  ⟨enterException_took small .reservedInstruction, by decide +kernel⟩

end Sys2Proof.Tests
end

section
/-! SUPPORT. The bodies behind the enable-check prologue, sorted once into seven forms; what a step can do; and what the
launch gives, which no step changes. -/

namespace Sys2Proof.Machine

/-! ## The bodies of the instructions -/

/-- The forms that the body of an instruction takes behind the prologue of R356, by what it writes and what it accesses
(R56, R71). -/
inductive BodyForm (s : State) : Effect → Option MemAccess → Result → Prop
  | vector (wd : VReg) (v : Vec) : BodyForm s (.vector wd) none (complete (writeWr s wd v))
  /-- a conversion with an invalid control value (R211) -/
  | drawnVector (wd : VReg) (v : Vec) :
      BodyForm s (.vector wd) none (complete { writeWr s wd v with draws := s.draws + 1 })
  /-- FCMUL.W (R157) -/
  | vectorAndStatus (wd : VReg) (v : Vec) :
      BodyForm s (.vectorAndStatus wd) none (complete (drawFpStatus (writeWr s wd v)))
  | load (a : Addr) (n : Nat) (wd : VReg) (f : BitVec (8 * n) → Vec) :
      BodyForm s (.vector wd) (some ⟨.load, a, n⟩) (load s a n fun x => writeWr s wd (f x))
  | loadUpdate (a : Addr) (n : Nat) (wd : VReg) (base : GReg) (f : BitVec (8 * n) → Vec) :
      BodyForm s (.vectorAndBase wd base) (some ⟨.load, a, n⟩) (load s a n fun x => writeGpr (writeWr s wd (f x)) base a)
  | store (a : Addr) (n : Nat) (x : BitVec (8 * n)) : BodyForm s .memory (some ⟨.store, a, n⟩) (store s a n x id)
  | storeUpdate (a : Addr) (n : Nat) (x : BitVec (8 * n)) (base : GReg) :
      BodyForm s (.memoryAndBase base) (some ⟨.store, a, n⟩) (store s a n x fun t => writeGpr t base a)

theorem upConvert_bodyForm (h : Half) (s : State) (wd ws wt : VReg) :
    BodyForm s (.vector wd) none (complete (upConvert h s wd ws wt)) := by
  unfold upConvert
  split
  · exact .vector wd _
  · exact .drawnVector wd _

/-- Every meaning is the prologue around a body of one of the forms, and the form is the one that `effectOf` and
`accessOf` name. -/
theorem exec_bodyForm (i : Instr) (s : State) :
    ∃ body, exec i s = mxa i.wellFormed s body ∧ BodyForm s (effectOf i) (accessOf s i) body := by
  cases i with
  | fexuplcW wd ws wt => exact ⟨_, rfl, upConvert_bodyForm .left s wd ws wt⟩
  | fexuprcW wd ws wt => exact ⟨_, rfl, upConvert_bodyForm .right s wd ws wt⟩
  | fcmulW => exact ⟨_, rfl, .vectorAndStatus _ _⟩
  | ldinsW | ldinsD | ldinssW => exact ⟨_, rfl, .load _ _ _ _⟩
  | ldinsuW | ldinsuD | ldinssuW | ldinssu2W => exact ⟨_, rfl, .loadUpdate _ _ _ _ _⟩
  | stextW | stextD => exact ⟨_, rfl, .store _ _ _⟩
  | stextuW | stextuD => exact ⟨_, rfl, .storeUpdate _ _ _ _⟩
  | _ => exact ⟨_, rfl, .vector _ _⟩

variable {s t : State}

/-! ## What a step can do -/

/-- FCMUL.W's new Cause and Flags leave every other bit of MSACSR (R157). -/
theorem msacsrWithCauseFlags_rest (c : Word) (cause : BitVec 6) (flags : BitVec 5) :
    msacsrWithCauseFlags c cause flags &&& 0xFFFC0F83#32 = c &&& 0xFFFC0F83#32 := by
  apply BitVec.eq_of_getLsbD_eq
  intro k hk
  unfold msacsrWithCauseFlags
  interval_cases k <;> simp

/-- As `writeWr_wroteOnly`, with the draws free. -/
theorem drawnWriteWr_wrote (s : State) (wd : VReg) (v : Vec) (d : Nat) :
    Wrote (.vector wd) s { writeWr s wd v with draws := d, pc := nextPc s } :=
  { (writeWr_wroteOnly s wd v).toWrote with
    cp0 := ⟨rfl, rfl, rfl, rfl, rfl, rfl⟩
    launch := ⟨rfl, rfl, rfl, rfl⟩ }

/-- As `writeWr_wroteOnly`, with FCMUL.W's effect on MSACSR. -/
theorem drawFpStatus_writeWr_wrote (s : State) (wd : VReg) (v : Vec) :
    Wrote (.vectorAndStatus wd) s { drawFpStatus (writeWr s wd v) with pc := nextPc s } :=
  { (writeWr_wroteOnly s wd v).toWrote with
    msacsr := nofun
    msacsrRest := msacsrWithCauseFlags_rest _ _ _
    cp0 := ⟨rfl, rfl, rfl, rfl, rfl, rfl⟩
    launch := ⟨rfl, rfl, rfl, rfl⟩ }

/-- A body answers a next state by completing with the writes its form names, or by an exception (R18, R358). -/
theorem BodyForm.next {e : Effect} {a : Option MemAccess} {body : Result} (hb : BodyForm s e a body)
    (h : body = .next t) : Wrote e s t ∨ ∃ x, t = enterException s x := by
  cases hb with
  | vector wd v =>
    rw [complete_next h]
    exact .inl (writeWr_wroteOnly s wd v).toWrote
  | drawnVector wd v =>
    rw [complete_next h]
    exact .inl (drawnWriteWr_wrote s wd v _)
  | vectorAndStatus wd v =>
    rw [complete_next h]
    exact .inl (drawFpStatus_writeWr_wrote s wd v)
  | load a n wd f =>
    obtain ⟨-, -, rfl⟩ | ⟨x, -, rfl⟩ := load_next h
    · exact .inr ⟨_, rfl⟩
    · exact .inl (writeWr_wroteOnly s wd (f x)).toWrote
  | loadUpdate a n wd base f =>
    obtain ⟨-, -, rfl⟩ | ⟨x, -, rfl⟩ := load_next h
    · exact .inr ⟨_, rfl⟩
    · exact .inl (writeWr_writeGpr_wroteOnly s wd (f x) base a).toWrote
  | store a n x =>
    obtain ⟨-, -, rfl⟩ | ⟨_, -, rfl, rfl⟩ := store_next h
    · exact .inr ⟨_, rfl⟩
    · exact .inl (mem_wroteOnly s _).toWrote
  | storeUpdate a n x base =>
    obtain ⟨-, -, rfl⟩ | ⟨_, -, rfl, rfl⟩ := store_next h
    · exact .inr ⟨_, rfl⟩
    · exact .inl (mem_writeGpr_wroteOnly s _ base a).toWrote

/-- An instruction that answers a next state has completed, writing what `effectOf` names, or has entered an exception
(R18, R358). -/
theorem exec_next {i : Instr} (h : exec i s = .next t) : Wrote (effectOf i) s t ∨ ∃ x, t = enterException s x := by
  obtain ⟨body, he, hb⟩ := exec_bodyForm i s
  obtain ⟨-, -, ht⟩ | ⟨-, -, -, -, ht⟩ | ⟨-, -, hn⟩ := mxa_next (he ▸ h)
  · exact .inr ⟨_, ht⟩
  · exact .inr ⟨_, ht⟩
  · exact hb.next hn

/-- A reserved word answers a next state only by Reserved Instruction (R124). -/
theorem execReserved_next (h : execReserved s = .next t) : t = enterException s .reservedInstruction := by
  obtain ⟨-, -, ht⟩ | ⟨-, hv, -⟩ | ⟨-, hv, -⟩ := mxa_next h
  · exact ht
  · cases hv
  · cases hv

/-- A step that answers a next state has completed an instruction or has entered an exception (R126, R358). -/
theorem step_next (h : step s = .next t) : (∃ i, Wrote (effectOf i) s t) ∨ ∃ x, t = enterException s x := by
  obtain ⟨_, -, ⟨i, -, hi⟩ | ⟨-, hr⟩⟩ := stepWith_next h
  · exact (exec_next hi).imp_left fun hw => ⟨i, hw⟩
  · exact .inr ⟨_, execReserved_next hr⟩

/-! ## What the launch gives -/

/-- Trap entry sets Status.EXL and no other bit of Status (R359). -/
theorem enterException_status_getLsbD (s : State) (x : Exc) {k : Nat} (hk : k ≠ 1) :
    (enterException s x).status.getLsbD k = s.status.getLsbD k := by
  have h2 : (0x00000002#32).getLsbD k = false := by
    rw [show 0x00000002#32 = BitVec.twoPow 32 1 from rfl, BitVec.getLsbD_twoPow]
    simp [hk.symm]
  simp [h2]

/-- Settles O48: a completion writes neither CP0 nor what the launch gives, and trap entry sets of all that only
Status.EXL. -/
theorem launchKept : Obligations.LaunchKept := by
  intro s t h
  obtain ⟨i, hw⟩ | ⟨x, rfl⟩ := step_next h
  · obtain ⟨h3, h5, hs, -, -, -⟩ := hw.cp0
    exact ⟨hw.launch, h3, h5, by simp [statusCU1, hs], by simp [statusFR, hs], by simp [statusCU2, hs]⟩
  · have hk := (enterException_took s x).kept
    have hbit (k : Nat) (h1 : k ≠ 1) := enterException_status_getLsbD s x h1
    exact ⟨hk.launch, hk.config3, hk.config5, hbit 29 (by decide), hbit 26 (by decide), hbit 30 (by decide)⟩

end Sys2Proof.Machine
end

section
/-! SUPPORT. The registers of the state: the fields of MSACSR, which only FCMUL.W writes, and of MSAIR, which
nothing writes. -/

namespace Sys2Proof.Machine

/-! ## The fields of MSACSR -/

/-- A field of a word does not depend on the bits that a mask clears around it. -/
theorem extractLsb'_eq_of_and_eq {m c d : Word} {lo n : Nat} (hm : m.extractLsb' lo n = BitVec.allOnes n)
    (h : c &&& m = d &&& m) : c.extractLsb' lo n = d.extractLsb' lo n := by
  have hf := congrArg (BitVec.extractLsb' lo n) h
  simpa only [BitVec.extractLsb'_and, hm, BitVec.and_allOnes] using hf

/-- A bit of a word does not depend on the bits that a mask clears around it. -/
theorem getLsbD_eq_of_and_eq {m c d : Word} {k : Nat} (hm : m.getLsbD k = true) (h : c &&& m = d &&& m) :
    c.getLsbD k = d.getLsbD k := by
  have hk := congrArg (BitVec.getLsbD · k) h
  simpa only [BitVec.getLsbD_and, hm, Bool.and_true] using hk

/-- The reserved bits of MSACSR lie outside Cause and Flags (R46). -/
theorem and_msacsrReserved_eq {c d : Word} (h : c &&& 0xFFFC0F83#32 = d &&& 0xFFFC0F83#32) :
    c &&& msacsrReserved = d &&& msacsrReserved := by
  have hr : msacsrReserved = 0xFFFC0F83#32 &&& msacsrReserved := rfl
  rw [hr, ← BitVec.and_assoc, ← BitVec.and_assoc, h]

/-- Of all instructions only FCMUL.W writes MSACSR (R47). -/
theorem effectOf_status_false {i : Instr} (h : ∀ wd ws wt, i ≠ .fcmulW wd ws wt) : (effectOf i).status = false := by
  cases i with
  | fcmulW wd ws wt => exact absurd rfl (h wd ws wt)
  | _ => rfl

/-- Settles O45: a completion keeps MSACSR outside Cause and Flags, and all of it but for FCMUL.W; trap entry keeps all of
it. -/
theorem msacsrKept : Obligations.MsacsrKept := by
  intro s t i h
  have hrest : t.msacsr &&& 0xFFFC0F83#32 = s.msacsr &&& 0xFFFC0F83#32 := by
    obtain hw | ⟨x, rfl⟩ := exec_next h
    · exact hw.msacsrRest
    · rfl
  refine ⟨fun hi => ?_, hrest, getLsbD_eq_of_and_eq rfl hrest, extractLsb'_eq_of_and_eq rfl hrest,
    getLsbD_eq_of_and_eq rfl hrest, extractLsb'_eq_of_and_eq rfl hrest, extractLsb'_eq_of_and_eq rfl hrest⟩
  obtain hw | ⟨x, rfl⟩ := exec_next h
  · exact hw.msacsr (effectOf_status_false hi)
  · rfl

/-! ## The fields of MSAIR -/

variable {s t : State}

/-- Bit 16 of MSAIR is `MSAIR_WRP` and the bits above it are 0 (R37). -/
theorem msair_extractLsb'_16 (s : State) : (msair s).extractLsb' 16 16 = 0#15 ++ BitVec.ofBool s.params.msairWrp := by
  unfold msair
  rw [BitVec.extractLsb'_append_eq_of_le (by decide), BitVec.extractLsb'_append_eq_of_le (by decide)]
  exact BitVec.extractLsb'_eq_self

/-- Bits 31:17 of MSAIR read as zero (R37). -/
theorem msair_extractLsb'_17 (s : State) : (msair s).extractLsb' 17 15 = 0#15 := by
  unfold msair
  rw [BitVec.extractLsb'_append_eq_of_le (by decide), BitVec.extractLsb'_append_eq_of_le (by decide)]
  exact BitVec.extractLsb'_append_eq_left

theorem msair_getLsbD_16 (s : State) : (msair s).getLsbD 16 = s.params.msairWrp := by
  unfold msair
  rw [BitVec.getLsbD_append, BitVec.getLsbD_append, BitVec.getLsbD_append]
  simp

theorem msair_extractLsb'_8 (s : State) : (msair s).extractLsb' 8 8 = s.params.msairProcId := by
  unfold msair
  rw [BitVec.extractLsb'_append_eq_of_le (by decide)]
  exact BitVec.extractLsb'_append_eq_right

theorem msair_extractLsb'_0 (s : State) : (msair s).extractLsb' 0 8 = s.params.msairVersion :=
  BitVec.extractLsb'_append_eq_right

/-- MSAIR is a view of the parameters (R37, R48). -/
theorem msair_eq_of_params (h : t.params = s.params) : msair t = msair s := by
  simp only [msair, h]

/-- Settles O47: the fields are the parameters, which no step changes. -/
theorem msairFields : Obligations.MsairFields := by
  intro s
  exact ⟨msair_extractLsb'_17 s, msair_getLsbD_16 s, msair_extractLsb'_8 s, msair_extractLsb'_0 s,
    fun t h => msair_eq_of_params (launchKept s t h).1.params⟩

end Sys2Proof.Machine
end

section
/-! SUPPORT. The invariant of every step: what a step does to the places of memory and of the general registers, and that
each part of the invariant survives it; and the state after reset. -/

namespace Sys2Proof.Machine

variable {s t : State}

/-! ## What a step stores -/

/-- An instruction's next state as plain data: memory is as it was or has received the instruction's store, and the
general registers are as they were or have received one write (R56). `Wrote` speaks of reads; this of the places. -/
structure Stored (a : Option MemAccess) (s t : State) : Prop where
  mem : t.mem = s.mem ∨ ∃ v n x, a = some ⟨.store, v, n⟩ ∧ storesTo s v n ∧ t.mem = memWrite s.mem s.params.endian v n x
  gpr : t.gpr = s.gpr ∨ ∃ r v, t.gpr = (writeGpr s r v).gpr

theorem enterException_stored (s : State) (a : Option MemAccess) (x : Exc) : Stored a s (enterException s x) :=
  ⟨.inl rfl, .inl rfl⟩

/-- A body stores what its form names. -/
theorem BodyForm.stored {e : Effect} {a : Option MemAccess} {body : Result} (hb : BodyForm s e a body)
    (h : body = .next t) : Stored a s t := by
  cases hb with
  | vector | drawnVector | vectorAndStatus =>
    rw [complete_next h]
    exact ⟨.inl rfl, .inl rfl⟩
  | load a n wd f =>
    obtain ⟨-, -, rfl⟩ | ⟨x, -, rfl⟩ := load_next h
    · exact enterException_stored s _ _
    · exact ⟨.inl rfl, .inl rfl⟩
  | loadUpdate a n wd base f =>
    obtain ⟨-, -, rfl⟩ | ⟨x, -, rfl⟩ := load_next h
    · exact enterException_stored s _ _
    · exact ⟨.inl rfl, .inr ⟨base, a, rfl⟩⟩
  | store a n x =>
    obtain ⟨-, -, rfl⟩ | ⟨_, hs, rfl, rfl⟩ := store_next h
    · exact enterException_stored s _ _
    · exact ⟨.inr ⟨a, n, x, rfl, hs, rfl⟩, .inl rfl⟩
  | storeUpdate a n x base =>
    obtain ⟨-, -, rfl⟩ | ⟨_, hs, rfl, rfl⟩ := store_next h
    · exact enterException_stored s _ _
    · exact ⟨.inr ⟨a, n, x, rfl, hs, rfl⟩, .inr ⟨base, a, rfl⟩⟩

/-- As `exec_next`, for the places of memory and of the general registers. -/
theorem exec_stored {i : Instr} (h : exec i s = .next t) : Stored (accessOf s i) s t := by
  obtain ⟨body, he, hb⟩ := exec_bodyForm i s
  obtain ⟨-, -, rfl⟩ | ⟨-, -, -, -, rfl⟩ | ⟨-, -, hn⟩ := mxa_next (he ▸ h)
  · exact enterException_stored s _ _
  · exact enterException_stored s _ _
  · exact hb.stored hn

/-- A step completes an instruction with its stores, or enters an exception. -/
theorem step_next_stored (h : step s = .next t) :
    (∃ i, Wrote (effectOf i) s t ∧ Stored (accessOf s i) s t) ∨ ∃ x, t = enterException s x := by
  obtain ⟨_, -, ⟨i, -, hi⟩ | ⟨-, hr⟩⟩ := stepWith_next h
  · exact (exec_next hi).imp_left fun hw => ⟨i, hw, exec_stored hi⟩
  · exact .inr ⟨_, execReserved_next hr⟩

/-! ## Memory -/

/-- The one access of an instruction is to a `GPRLEN`-bit address, of a word or a doubleword (R71, R241). -/
theorem accessOf_bounds {i : Instr} {a : MemAccess} (h : accessOf s i = some a) :
    wrapAddr s a.vaddr = a.vaddr ∧ (a.size = 4 ∨ a.size = 8) := by
  cases i <;> cases h <;> simp

/-- An aligned access to a `GPRLEN`-bit address ends inside the address space (R73 to R75). -/
theorem add_le_of_aligned {v : Addr} {n : Nat} (hv : wrapAddr s v = v) (hn : n = 4 ∨ n = 8) (ha : aligned v n = true) :
    v.toNat + n ≤ 2 ^ gprBits s.params.gprLen := by
  have hlt : v.toNat < 2 ^ gprBits s.params.gprLen := by
    rw [← hv, toNat_wrapAddr]
    exact Nat.mod_lt _ (Nat.two_pow_pos _)
  have hmod : v.toNat % n = 0 := by simpa [aligned] using ha
  obtain rfl | rfl := hn <;> cases hg : s.params.gprLen <;> simp only [hg, gprBits] at hlt ⊢ <;> omega

/-- A store that ends inside an address space keeps every entry of memory inside it (R54, R74). -/
theorem memWrite_lt {m : Memory} (e : Endian) {p : Addr} {n k : Nat} (v : BitVec (8 * n)) (hk : k ≤ 64)
    (hp : p.toNat + n ≤ 2 ^ k) (h : ∀ c ∈ m, c.1 < 2 ^ k) : ∀ c ∈ memWrite m e p n v, c.1 < 2 ^ k := by
  intro c hc
  have hk64 : 2 ^ k ≤ 2 ^ 64 := Nat.pow_le_pow_right (by decide) hk
  obtain ⟨q, hq, hcq⟩ | hc := mem_memPutBytes hc
  · rw [length_bytesOfNat] at hq
    have := (mem_span_bounds hq (hp.trans hk64)).2
    omega
  · exact h c hc

theorem gprBits_le (g : GprLen) : gprBits g ≤ 64 := by
  cases g <;> decide

/-- An instruction's store keeps memory canonical and inside the address space (R54). -/
theorem Stored.mem_inv {i : Instr} (h : Stored (accessOf s i) s t) (hwf : s.mem.wf)
    (hlt : ∀ c ∈ s.mem, c.1 < 2 ^ gprBits s.params.gprLen) :
    t.mem.wf ∧ ∀ c ∈ t.mem, c.1 < 2 ^ gprBits s.params.gprLen := by
  obtain hm | ⟨v, n, x, ha, ⟨hal, -, -⟩, hm⟩ := h.mem
  · exact hm ▸ ⟨hwf, hlt⟩
  · obtain ⟨hv, hn⟩ := accessOf_bounds ha
    rw [hm]
    exact ⟨memWrite_wf _ v n x hwf, memWrite_lt _ x (gprBits_le _) (add_le_of_aligned hv hn hal) hlt⟩

/-! ## The general registers -/

/-- The place of a register after a write of it or of another; a write of `GPR[0]` is discarded (R34, R35). -/
theorem getElem_writeGpr_gpr (s : State) (r q : GReg) (v : Addr) :
    (writeGpr s r v).gpr[q.toNat] = if r ≠ 0#5 ∧ q = r then wrapAddr s v else s.gpr[q.toNat] := by
  by_cases h0 : r = 0#5
  · simp [h0]
  · by_cases hq : q = r
    · subst hq
      simp [h0]
    · have hne : r.toNat ≠ q.toNat := fun e => hq (BitVec.eq_of_toNat_eq e.symm)
      simp [h0, hq, hne]

/-- An instruction keeps 0 in the place of `GPR[0]` and `GPRLEN` bits in every general register (R34, R35). -/
theorem Stored.gpr_inv {a : Option MemAccess} (h : Stored a s t) (h0 : s.gpr[0] = 0#64)
    (hr : ∀ r : GReg, wrapAddr s s.gpr[r.toNat] = s.gpr[r.toNat]) :
    t.gpr[0] = 0#64 ∧ ∀ r : GReg, wrapAddr s t.gpr[r.toNat] = t.gpr[r.toNat] := by
  obtain hg | ⟨q, v, hg⟩ := h.gpr
  · rw [hg]
    exact ⟨h0, hr⟩
  · rw [hg]
    refine ⟨?_, fun r => ?_⟩
    · have hz := getElem_writeGpr_gpr s q 0#5 v
      rw [if_neg fun ⟨hne, he⟩ => hne he.symm] at hz
      exact hz.trans h0
    · rw [getElem_writeGpr_gpr]
      split
      · exact wrapAddr_wrapAddr s v
      · exact hr r

/-! ## The pc -/

/-- The next word's address is a multiple of 4 where the pc is (R36). -/
theorem aligned_nextPc (h : aligned s.pc 4 = true) : aligned (nextPc s) 4 = true := by
  have hmod : s.pc.toNat % 4 = 0 := by simpa [aligned] using h
  have hg : 4 ∣ 2 ^ gprBits s.params.gprLen := by cases s.params.gprLen <;> decide
  have hpc : (nextPc s).toNat % 4 = 0 := by
    rw [nextPc, toNat_wrapAddr, Nat.mod_mod_of_dvd _ hg, BitVec.toNat_add, BitVec.toNat_ofNat]
    omega
  simpa [aligned] using hpc

/-! ## The invariant -/

theorem wrapAddr_congr (h : t.params = s.params) (v : Addr) : wrapAddr t v = wrapAddr s v := by
  rw [wrapAddr, wrapAddr, h]

/-- Trap entry keeps the invariant: the vector has what the pc needs (R36, R359). -/
theorem enterException_inv (x : Exc) (h : Inv s) : Inv (enterException s x) := by
  obtain ⟨hwf, hlt, hres, -, hvec, h0, hgpr⟩ := h
  exact ⟨hwf, hlt, hres, hvec, hvec, h0, hgpr⟩

/-- An instruction that completes keeps the invariant. -/
theorem Wrote.inv {i : Instr} (hw : Wrote (effectOf i) s t) (hst : Stored (accessOf s i) s t) (h : Inv s) : Inv t := by
  obtain ⟨hwf, hlt, hres, ⟨hpc, -⟩, hvec, h0, hgpr⟩ := h
  obtain ⟨hwf', hlt'⟩ := hst.mem_inv hwf hlt
  obtain ⟨h0', hgpr'⟩ := hst.gpr_inv h0 hgpr
  have hparams := hw.launch.params
  unfold Inv
  simp only [wrapAddr_congr hparams, hparams, hw.pc]
  exact ⟨hwf', hlt', (and_msacsrReserved_eq hw.msacsrRest).trans hres, ⟨aligned_nextPc hpc, wrapAddr_nextPc s⟩, hvec, h0',
    hgpr'⟩

/-- Settles O58: a completion keeps each part of the invariant by the lemmas above, and trap entry by the vector's. -/
theorem invariantKept : Obligations.InvariantKept := by
  intro s t hinv h
  obtain ⟨i, hw, hst⟩ | ⟨x, rfl⟩ := step_next_stored h
  · exact hw.inv hst hinv
  · exact enterException_inv x hinv

/-! ## After reset -/

/-- The exception vector after reset is a multiple of 4, whatever the bits that the spec leaves open (R359, log 8). -/
theorem reset_genExcVector_aligned : aligned State.reset.params.genExcVector 4 = true := by
  change aligned ((Config.genExcVectorIndex ++ 0b00#2).setWidth 64) 4 = true
  simp only [aligned, BitVec.toNat_setWidth, BitVec.toNat_append, Nat.shiftLeft_eq, BitVec.toNat_ofNat, Nat.zero_mod,
    Nat.or_zero, beq_iff_eq]
  omega

/-- The exception vector after reset is a 32-bit address, as `GPRLEN` is 32 there (log 8). -/
theorem reset_genExcVector_wrapped :
    wrapAddr State.reset State.reset.params.genExcVector = State.reset.params.genExcVector := by
  change ((((Config.genExcVectorIndex ++ 0b00#2).setWidth 64).setWidth 32).setWidth 64 : Addr)
    = (Config.genExcVectorIndex ++ 0b00#2).setWidth 64
  simp

/-- Every general register holds 0 after reset (R58, log 2). -/
theorem reset_gpr (r : GReg) : State.reset.gpr[r.toNat] = 0#64 := by
  simp [State.reset]

/-- Settles O59: each part of the invariant by the value that reset gives it. -/
theorem invariantAtReset : Obligations.InvariantAtReset := by
  have hgpr (r : GReg) : wrapAddr State.reset State.reset.gpr[r.toNat] = State.reset.gpr[r.toNat] := by
    rw [reset_gpr, wrapAddr_zero]
  exact ⟨reset_mem_wf, nofun, rfl, ⟨by decide, by decide⟩, ⟨reset_genExcVector_aligned, reset_genExcVector_wrapped⟩,
    reset_gpr 0#5, hgpr⟩

/-- Settles O60: `GPR[0]` reads as zero in every state, MSAIR is the parameters, and MSACSR is 0. -/
theorem resetValues : Obligations.ResetValues := by
  have hwrp : State.reset.params.msairWrp = false := rfl
  refine ⟨readGpr_zero _, ?_, rfl, rfl, rfl⟩
  rw [msair_extractLsb'_16, hwrp]
  rfl

end Sys2Proof.Machine
end

section
/-! SUPPORT. Memory byte by byte: the bytes of a value in each order, what `MemRead` and `MemWrite` say of single bytes, and
a load after a store. -/

namespace Sys2Proof.Machine

/-! ## The bytes of a value -/

theorem two_pow_eight_mul (n : Nat) : 2 ^ (8 * n) = 256 ^ n := by
  rw [Nat.pow_mul]

theorem natOfBytesLE_lt (bs : List Byte) : natOfBytesLE bs < 256 ^ bs.length := by
  induction bs with
  | nil => simp [natOfBytesLE]
  | cons b bs ih =>
    have hb : b.toNat < 256 := b.isLt
    rw [natOfBytesLE, List.length_cons, Nat.pow_succ]
    omega

theorem bytesOfNatLE_natOfBytesLE (bs : List Byte) : bytesOfNatLE bs.length (natOfBytesLE bs) = bs := by
  induction bs with
  | nil => rfl
  | cons b bs ih =>
    have hb : b.toNat < 256 := b.isLt
    have hhead : BitVec.ofNat 8 (b.toNat + 256 * natOfBytesLE bs) = b := by
      apply BitVec.eq_of_toNat_eq
      rw [BitVec.toNat_ofNat]
      omega
    have htail : (b.toNat + 256 * natOfBytesLE bs) / 256 = natOfBytesLE bs := by omega
    rw [natOfBytesLE, List.length_cons, bytesOfNatLE, hhead, htail, ih]

theorem natOfBytesLE_bytesOfNatLE (n v : Nat) : natOfBytesLE (bytesOfNatLE n v) = v % 256 ^ n := by
  induction n generalizing v with
  | zero => simp [bytesOfNatLE, natOfBytesLE, Nat.mod_one]
  | succ n ih =>
    have hv : v % 256 ^ (n + 1) = v % 256 + 256 * (v / 256 % 256 ^ n) := by rw [Nat.pow_succ', Nat.mod_mul]
    rw [bytesOfNatLE, natOfBytesLE, ih, BitVec.toNat_ofNat, hv]

theorem getElem?_bytesOfNatLE {n k : Nat} (v : Nat) (hk : k < n) :
    (bytesOfNatLE n v)[k]? = some (BitVec.ofNat 8 (v >>> (8 * k))) := by
  induction n generalizing v k with
  | zero => omega
  | succ n ih =>
    cases k with
    | zero => rfl
    | succ k =>
      have hv : v / 256 = v >>> 8 := (Nat.shiftRight_eq_div_pow v 8).symm
      rw [bytesOfNatLE, List.getElem?_cons_succ, ih (v / 256) (by omega), hv, ← Nat.shiftRight_add, Nat.mul_succ,
        Nat.add_comm]

theorem natOfBytes_lt (e : Endian) (bs : List Byte) : natOfBytes e bs < 256 ^ bs.length := by
  cases e with
  | little => exact natOfBytesLE_lt bs
  | big => simpa only [natOfBytes, List.length_reverse] using natOfBytesLE_lt bs.reverse

theorem bytesOfNat_natOfBytes (e : Endian) (bs : List Byte) : bytesOfNat e bs.length (natOfBytes e bs) = bs := by
  cases e with
  | little => exact bytesOfNatLE_natOfBytesLE bs
  | big => rw [bytesOfNat, natOfBytes, ← List.length_reverse, bytesOfNatLE_natOfBytesLE, List.reverse_reverse]

theorem natOfBytes_bytesOfNat (e : Endian) (n v : Nat) : natOfBytes e (bytesOfNat e n v) = v % 256 ^ n := by
  cases e with
  | little => exact natOfBytesLE_bytesOfNatLE n v
  | big => rw [bytesOfNat, natOfBytes, List.reverse_reverse, natOfBytesLE_bytesOfNatLE]

/-- Where byte `k` of an `n`-byte value stands from the first address on (R73, D3). -/
def bytePlace (e : Endian) (n k : Nat) : Nat :=
  match e with
  | .little => k
  | .big => n - 1 - k

theorem bytePlace_lt (e : Endian) {n k : Nat} (hk : k < n) : bytePlace e n k < n := by
  cases e with
  | little => exact hk
  | big => exact show n - 1 - k < n by omega

/-- Reversing the bytes twice gives the first order. -/
theorem bytePlace_bytePlace (e : Endian) {n k : Nat} (hk : k < n) : bytePlace e n (bytePlace e n k) = k := by
  cases e with
  | little => rfl
  | big => exact show n - 1 - (n - 1 - k) = k by omega

theorem getElem?_bytesOfNat (e : Endian) {n k : Nat} (x : BitVec (8 * n)) (hk : k < n) :
    (bytesOfNat e n x.toNat)[bytePlace e n k]? = some (x.extractLsb' (8 * k) 8) := by
  have hbyte : (bytesOfNatLE n x.toNat)[k]? = some (x.extractLsb' (8 * k) 8) := getElem?_bytesOfNatLE x.toNat hk
  cases e with
  | little => exact hbyte
  | big =>
    have hlen : (bytesOfNatLE n x.toNat).length = n := length_bytesOfNatLE n x.toNat
    have hplace : bytePlace .big n k < (bytesOfNatLE n x.toNat).length := hlen.symm ▸ bytePlace_lt .big hk
    have hback : n - 1 - bytePlace .big n k = k := bytePlace_bytePlace .big hk
    rw [bytesOfNat, List.getElem?_reverse hplace, hlen, hback, hbyte]

/-! ## Byte strings in memory -/

/-- The bytes after the first one end where all of them end. -/
theorem toNat_add_one_add_le {p : Addr} {n : Nat} (hp : p.toNat + (n + 1) ≤ 2 ^ 64) :
    (p + 1#64).toNat + n ≤ 2 ^ 64 := by
  rw [BitVec.toNat_add, BitVec.toNat_ofNat]
  omega

theorem toNat_add_one_add {p : Addr} {n j : Nat} (hp : p.toNat + (n + 1) ≤ 2 ^ 64) (hj : j < n) :
    (p + 1#64).toNat + j = p.toNat + (j + 1) := by
  rw [BitVec.toNat_add, BitVec.toNat_ofNat]
  omega

theorem memBytes_succ_eq_some_iff {m : Memory} {p : Addr} {n : Nat} {bs : List Byte} :
    memBytes m p (n + 1) = some bs ↔
      ∃ b, memGet m p.toNat = some b ∧ ∃ bs', memBytes m (p + 1#64) n = some bs' ∧ b :: bs' = bs := by
  simp [memBytes, span, Option.bind_eq_some_iff]

/-- The `n` bytes from an address on, place by place. -/
theorem memBytes_eq_some_iff {m : Memory} {p : Addr} {n : Nat} {bs : List Byte} (hp : p.toNat + n ≤ 2 ^ 64) :
    memBytes m p n = some bs ↔ bs.length = n ∧ ∀ j < n, memGet m (p.toNat + j) = bs[j]? := by
  induction n generalizing p bs with
  | zero => simp [memBytes, span, List.length_eq_zero_iff, eq_comm (a := [])]
  | succ n ih =>
    rw [memBytes_succ_eq_some_iff]
    constructor
    · rintro ⟨b, hb, bs', hbs, rfl⟩
      obtain ⟨hlen, hget⟩ := (ih (toNat_add_one_add_le hp)).mp hbs
      refine ⟨by rw [List.length_cons, hlen], Nat.forall_lt_succ_left.mpr ⟨hb, fun j hj => ?_⟩⟩
      rw [← toNat_add_one_add hp hj, hget j hj, List.getElem?_cons_succ]
    · rintro ⟨hlen, hget⟩
      obtain ⟨b, bs', rfl⟩ := List.exists_cons_of_length_eq_add_one hlen
      obtain ⟨hb, htail⟩ := Nat.forall_lt_succ_left.mp hget
      refine ⟨b, hb, bs', (ih (toNat_add_one_add_le hp)).mpr ⟨Nat.succ.inj hlen, fun j hj => ?_⟩, rfl⟩
      rw [toNat_add_one_add hp hj, htail j hj, List.getElem?_cons_succ]

/-- Stored bytes stand in their places. -/
theorem memGet_memPutBytes_self (m : Memory) {p : Addr} {bs : List Byte} {j : Nat} (hp : p.toNat + bs.length ≤ 2 ^ 64)
    (hj : j < bs.length) : memGet (memPutBytes m p bs) (p.toNat + j) = bs[j]? := by
  induction bs generalizing m p j with
  | nil => cases hj
  | cons b bs ih =>
    rw [List.length_cons] at hp hj
    rw [memPutBytes]
    cases j with
    | zero =>
      have hnot : ∀ q ∈ span (p + 1#64) bs.length, p.toNat ≠ q.toNat := by
        intro q hq
        have hbounds := mem_span_bounds hq (toNat_add_one_add_le hp)
        have hfirst := toNat_add_one_add (j := 0) hp (by omega)
        omega
      rw [Nat.add_zero, memGet_memPutBytes_ne _ _ bs _ hnot, memGet_memPut_self, List.getElem?_cons_zero]
    | succ j =>
      have hj' : j < bs.length := Nat.lt_of_succ_lt_succ hj
      rw [← toNat_add_one_add hp hj', ih (memPut m p.toNat b) (toNat_add_one_add_le hp) hj', List.getElem?_cons_succ]

/-! ## `MemRead` and `MemWrite` -/

/-- `MemRead` answers a value exactly where the value's bytes stand (R73). -/
theorem memRead_eq_some_iff_memBytes {m : Memory} {e : Endian} {p : Addr} {n : Nat} {x : BitVec (8 * n)}
    (hp : p.toNat + n ≤ 2 ^ 64) : memRead m e p n = some x ↔ memBytes m p n = some (bytesOfNat e n x.toNat) := by
  rw [memRead, Option.map_eq_some_iff]
  constructor
  · rintro ⟨bs, hbs, rfl⟩
    obtain ⟨hlen, -⟩ := (memBytes_eq_some_iff hp).mp hbs
    subst hlen
    rw [hbs, BitVec.toNat_ofNat, two_pow_eight_mul, Nat.mod_eq_of_lt (natOfBytes_lt e bs), bytesOfNat_natOfBytes]
  · intro h
    refine ⟨_, h, ?_⟩
    rw [natOfBytes_bytesOfNat, ← two_pow_eight_mul, Nat.mod_eq_of_lt x.isLt, BitVec.ofNat_toNat, BitVec.setWidth_eq]

/-- `MemRead` byte by byte (R73). -/
theorem memRead_eq_some_iff {m : Memory} {e : Endian} {p : Addr} {n : Nat} {x : BitVec (8 * n)}
    (hp : p.toNat + n ≤ 2 ^ 64) :
    memRead m e p n = some x ↔ ∀ k < n, memGet m (p.toNat + bytePlace e n k) = some (x.extractLsb' (8 * k) 8) := by
  rw [memRead_eq_some_iff_memBytes hp, memBytes_eq_some_iff hp]
  constructor
  · rintro ⟨-, hget⟩ k hk
    rw [hget _ (bytePlace_lt e hk), getElem?_bytesOfNat e x hk]
  · intro hget
    refine ⟨length_bytesOfNat e n x.toNat, fun j hj => ?_⟩
    have hk := bytePlace_lt e hj
    rw [← bytePlace_bytePlace e hj, hget _ hk, getElem?_bytesOfNat e x hk]

/-- `MemWrite` puts byte `k` of the value in its place (R74). -/
theorem memGet_memWrite_self (m : Memory) (e : Endian) {p : Addr} {n k : Nat} (x : BitVec (8 * n))
    (hp : p.toNat + n ≤ 2 ^ 64) (hk : k < n) :
    memGet (memWrite m e p n x) (p.toNat + bytePlace e n k) = some (x.extractLsb' (8 * k) 8) := by
  have hlen : (bytesOfNat e n x.toNat).length = n := length_bytesOfNat e n x.toNat
  rw [memWrite, memGet_memPutBytes_self m (hlen.symm ▸ hp) (hlen.symm ▸ bytePlace_lt e hk), getElem?_bytesOfNat e x hk]

/-- `MemWrite` changes no byte below or above its own (R74). -/
theorem memGet_memWrite_outside (m : Memory) (e : Endian) {p : Addr} {n a : Nat} (x : BitVec (8 * n))
    (hp : p.toNat + n ≤ 2 ^ 64) (ha : a < p.toNat ∨ p.toNat + n ≤ a) :
    memGet (memWrite m e p n x) a = memGet m a := by
  refine memGet_memWrite_ne m e p n x a fun q hq => ?_
  have := mem_span_bounds hq hp
  omega

/-- A word or a doubleword at a multiple of its size ends inside the address space (R75). -/
theorem toNat_add_le_of_mod_eq_zero {p : Addr} {n : Nat} (hn : n = 4 ∨ n = 8) (hp : p.toNat % n = 0) :
    p.toNat + n ≤ 2 ^ 64 := by
  have hlt : p.toNat < 2 ^ 64 := p.isLt
  obtain rfl | rfl := hn <;> omega

/-- Two words or doublewords at different multiples of their size share no byte. -/
theorem disjoint_of_mod_eq_zero {p q : Addr} {n : Nat} (hn : n = 4 ∨ n = 8) (hp : p.toNat % n = 0)
    (hq : q.toNat % n = 0) (hne : q ≠ p) : q.toNat + n ≤ p.toNat ∨ p.toNat + n ≤ q.toNat := by
  have hne' : q.toNat ≠ p.toNat := fun h => hne (BitVec.eq_of_toNat_eq h)
  obtain rfl | rfl := hn <;> omega

/-- Settles O49: an aligned access does not wrap, so each byte stands in its place. -/
theorem memoryBytes : Obligations.MemoryBytes := by
  intro m e p n hn hal
  have hp := toNat_add_le_of_mod_eq_zero hn hal
  exact ⟨fun x => memRead_eq_some_iff hp, fun x k hk => memGet_memWrite_self m e x hp hk,
    fun x a ha => memGet_memWrite_outside m e x hp ha⟩

/-- Settles O50: at the same address by the bytes that the store put there, at another one because the two accesses share
no byte. -/
theorem memoryReadAfterWrite : Obligations.MemoryReadAfterWrite := by
  intro m e p q n x hn hp hq
  have hpn := toNat_add_le_of_mod_eq_zero hn hp
  have hqn := toNat_add_le_of_mod_eq_zero hn hq
  split
  next h =>
    subst h
    exact (memRead_eq_some_iff hqn).mpr fun k hk => memGet_memWrite_self m e x hqn hk
  next hne =>
    have hdisj := disjoint_of_mod_eq_zero hn hp hq hne
    have hkept (k : Nat) (hk : k < n) : memGet (memWrite m e p n x) (q.toNat + bytePlace e n k)
        = memGet m (q.toNat + bytePlace e n k) := by
      have := bytePlace_lt e hk
      exact memGet_memWrite_outside m e x hpn (by omega)
    apply Option.ext
    intro y
    rw [memRead_eq_some_iff hqn, memRead_eq_some_iff hqn]
    exact forall₂_congr fun k hk => by rw [hkept k hk]

end Sys2Proof.Machine
end

section
/-! SUPPORT. Decoding and encoding agree: words and their fields, the five formats and the rows of the opcode table each
as conditions on the same fields (R102 to R121); and the verdicts of the decoder (R126). -/

namespace Sys2Proof

/-! ## Fields of bit strings -/

theorem eq_append_iff {m n : Nat} {x : BitVec m} {y : BitVec n} {z : BitVec (m + n)} :
    z = x ++ y ↔ z.extractLsb' n m = x ∧ z.extractLsb' 0 n = y := by
  constructor
  · rintro rfl
    exact ⟨BitVec.extractLsb'_append_eq_left, BitVec.extractLsb'_append_eq_right⟩
  · rintro ⟨rfl, rfl⟩
    exact BitVec.extractLsb'_append_extractLsb'.symm

theorem extractLsb'_extractLsb' {k lo n lo' n' : Nat} {x : BitVec k} (h : lo' + n' ≤ n) :
    (x.extractLsb' lo n).extractLsb' lo' n' = x.extractLsb' (lo + lo') n' := by
  ext i hi
  simp [show lo' + i < n by omega, Nat.add_assoc]

theorem extractLsb'_eq_append_iff {k lo m n : Nat} {w : BitVec k} {x : BitVec m} {y : BitVec n} :
    w.extractLsb' lo (m + n) = x ++ y ↔ w.extractLsb' (lo + n) m = x ∧ w.extractLsb' lo n = y := by
  rw [eq_append_iff, extractLsb'_extractLsb' (by omega), extractLsb'_extractLsb' (by omega), Nat.add_zero]

theorem extractLsb'_and_append_iff {k lo m n : Nat} {w : BitVec k} {p x : BitVec m} {q y : BitVec n} :
    w.extractLsb' lo (m + n) &&& (p ++ q) = x ++ y
      ↔ w.extractLsb' (lo + n) m &&& p = x ∧ w.extractLsb' lo n &&& q = y := by
  rw [← BitVec.extractLsb'_append_extractLsb'_eq_extractLsb' rfl, BitVec.and_append, eq_append_iff,
    BitVec.extractLsb'_append_eq_left, BitVec.extractLsb'_append_eq_right]

variable {w : Word}

/-! ## The formats -/

/-- What the formats have in common: COP2 and `rs`, three 5-bit fields, and the low six bits (R102 to R108). -/
def assemble (top : BitVec 11) (a b c : BitVec 5) (low : BitVec 6) : Word := top ++ a ++ b ++ c ++ low

theorem eq_assemble_iff {top : BitVec 11} {a b c : BitVec 5} {low : BitVec 6} :
    w = assemble top a b c low
      ↔ w.extractLsb' 21 11 = top ∧ fieldWt w = a ∧ fieldWs w = b ∧ fieldWd w = c ∧ w.extractLsb' 0 6 = low := by
  rw [assemble, eq_append_iff (m := 26) (n := 6), extractLsb'_eq_append_iff (m := 21) (n := 5),
    extractLsb'_eq_append_iff (m := 16) (n := 5), extractLsb'_eq_append_iff (m := 11) (n := 5), and_assoc, and_assoc,
    and_assoc]
  rfl

theorem enc3RF_eq_assemble (wt ws wd : VReg) (funct : BitVec 5) (df : BitVec 1) :
    enc3RF wt ws wd funct df = assemble (0b010010#6 ++ 0b10000#5) wt ws wd (funct ++ df) :=
  BitVec.append_assoc

theorem enc3R_eq_assemble (rs : BitVec 5) (wt ws wd : VReg) (funct : BitVec 4) (df : BitVec 2) :
    enc3R rs wt ws wd funct df = assemble (0b010010#6 ++ rs) wt ws wd (funct ++ df) :=
  BitVec.append_assoc

theorem enc2R_eq_assemble (funct1 : BitVec 5) (ws wd : VReg) (funct0 : BitVec 4) (df : BitVec 2) :
    enc2R funct1 ws wd funct0 df = assemble (0b010010#6 ++ 0b11010#5) funct1 ws wd (funct0 ++ df) :=
  BitVec.append_assoc

theorem encElm_eq_assemble (rs high middle wd : BitVec 5) (dfn : BitVec 6) :
    encElm rs high middle wd dfn = assemble (0b010010#6 ++ rs) high middle wd dfn :=
  rfl

theorem enc4R_eq_assemble (wt ws wd wr : VReg) (op : BitVec 1) :
    enc4R wt ws wd wr op = assemble (0b010010#6 ++ 0b11101#5) wt ws wd (wr ++ op) :=
  BitVec.append_assoc

/-! ## The rows -/

/-- A row's mask tests each field on its own (R126 step 3). -/
theorem rowMatches_iff_fields {r : Row} :
    rowMatches w r = true
      ↔ w.extractLsb' 21 11 &&& r.mask.extractLsb' 21 11 = r.fixed.extractLsb' 21 11
        ∧ fieldWt w &&& r.mask.extractLsb' 16 5 = r.fixed.extractLsb' 16 5
        ∧ fieldWs w &&& r.mask.extractLsb' 11 5 = r.fixed.extractLsb' 11 5
        ∧ fieldWd w &&& r.mask.extractLsb' 6 5 = r.fixed.extractLsb' 6 5
        ∧ w.extractLsb' 0 6 &&& r.mask.extractLsb' 0 6 = r.fixed.extractLsb' 0 6 := by
  have hfixed : r.fixed = assemble _ _ _ _ _ := eq_assemble_iff.mpr ⟨rfl, rfl, rfl, rfl, rfl⟩
  rw [rowMatches, beq_iff_eq, hfixed, eq_assemble_iff, ← hfixed]
  simp only [fieldWd, fieldWs, fieldWt, BitVec.extractLsb'_and]

theorem and_all_top (x : BitVec 11) : x &&& 0x7FF#11 = x :=
  BitVec.and_allOnes

theorem and_all_register (x : BitVec 5) : x &&& 0x1F#5 = x :=
  BitVec.and_allOnes

theorem and_all_low (x : BitVec 6) : x &&& 0x3F#6 = x :=
  BitVec.and_allOnes

/-! ## The immediate operands: the decoder's mask and number against the encoder's code and bits (R112, R114) -/

/-- A code above an index: the mask of the code and the number read below it fix the field. -/
theorem code_index_iff (m n : Nat) {k : Nat} {code : BitVec m} :
    w.extractLsb' 0 (m + n) &&& (BitVec.allOnes m ++ 0#n) = code ++ 0#n ∧ fieldImm 0 n w = k
      ↔ k < 2 ^ n ∧ w.extractLsb' 0 (m + n) = code ++ BitVec.ofNat n k := by
  rw [extractLsb'_and_append_iff, extractLsb'_eq_append_iff, fieldImm, BitVec.toNat_eq_nat, BitVec.and_allOnes,
    BitVec.and_zero]
  tauto

theorem dfnByte_iff (w : Word) (n : Nat) :
    w.extractLsb' 0 6 &&& 0x30#6 = 0x00#6 ∧ fieldImm 0 4 w = n ↔ n < 16 ∧ w.extractLsb' 0 6 = dfnByte n :=
  code_index_iff 2 4 (code := 0b00#2)

theorem dfnHalf_iff (w : Word) (n : Nat) :
    w.extractLsb' 0 6 &&& 0x38#6 = 0x20#6 ∧ fieldImm 0 3 w = n ↔ n < 8 ∧ w.extractLsb' 0 6 = dfnHalf n :=
  code_index_iff 3 3 (code := 0b100#3)

theorem dfnWord_iff (w : Word) (n : Nat) :
    w.extractLsb' 0 6 &&& 0x3C#6 = 0x30#6 ∧ fieldImm 0 2 w = n ↔ n < 4 ∧ w.extractLsb' 0 6 = dfnWord n :=
  code_index_iff 4 2 (code := 0b1100#4)

theorem dfnDouble_iff (w : Word) (n : Nat) :
    w.extractLsb' 0 6 &&& 0x3E#6 = 0x38#6 ∧ fieldImm 0 1 w = n ↔ n < 2 ∧ w.extractLsb' 0 6 = dfnDouble n :=
  code_index_iff 5 1 (code := 0b11100#5)

theorem dfnSparse_iff (w : Word) (n : Nat) :
    w.extractLsb' 0 6 &&& 0x3C#6 = 0x3C#6 ∧ fieldImm 0 2 w = n ↔ n < 4 ∧ w.extractLsb' 0 6 = dfnSparse n :=
  code_index_iff 4 2 (code := 0b1111#4)

/-- MOVE.W has two indices below its code. -/
theorem moveIndices_iff (w : Word) (m n : Nat) :
    w.extractLsb' 0 6 &&& 0x30#6 = 0x00#6 ∧ fieldImm 2 2 w = m ∧ fieldImm 0 2 w = n
      ↔ (m < 4 ∧ n < 4) ∧ w.extractLsb' 0 6 = 0b00#2 ++ BitVec.ofNat 2 m ++ BitVec.ofNat 2 n := by
  rw [show 0x30#6 = BitVec.allOnes 2 ++ 0#4 from rfl, show 0x00#6 = 0b00#2 ++ 0#4 from rfl,
    extractLsb'_and_append_iff (m := 2) (n := 4), extractLsb'_eq_append_iff (m := 4) (n := 2),
    extractLsb'_eq_append_iff (m := 2) (n := 2), fieldImm, fieldImm, BitVec.toNat_eq_nat, BitVec.toNat_eq_nat,
    BitVec.and_allOnes, BitVec.and_zero]
  tauto

/-- The shift amounts of SLLI.V and SRLI.V stand in the place of `wt` (R105). -/
theorem shiftAmount_iff (w : Word) (m : Nat) : fieldImm 16 5 w = m ↔ m < 32 ∧ fieldWt w = BitVec.ofNat 5 m :=
  BitVec.toNat_eq_nat

/-- Format 4R has `wr` above its one operation bit (R108). -/
theorem wr_op_iff (w : Word) (wr : VReg) (op : BitVec 1) :
    w.extractLsb' 0 6 &&& 0x01#6 = 0#5 ++ op ∧ fieldWr w = wr ↔ w.extractLsb' 0 6 = wr ++ op := by
  rw [show 0x01#6 = 0#5 ++ BitVec.allOnes 1 from rfl, extractLsb'_and_append_iff (m := 5) (n := 1),
    extractLsb'_eq_append_iff (m := 5) (n := 1), fieldWr, BitVec.and_allOnes, BitVec.and_zero]
  tauto

/-! ## Decoding and encoding agree -/

/-- The rows stand in the order of the constructors that they build. -/
theorem ctorIdx_build {k : Nat} {r : Row} (h : opcodeRows[k]? = some r) (w : Word) : (r.build w).ctorIdx = k := by
  have horder : opcodeRows.map (fun r => (r.build w).ctorIdx) = List.range 72 := rfl
  have hk : (List.range 72)[k]? = some (r.build w).ctorIdx := by rw [← horder, List.getElem?_map, h, Option.map_some]
  obtain ⟨_, hk⟩ := List.getElem?_eq_some_iff.mp hk
  simpa using hk.symm

/-- The row in an instruction's place of the table matches and builds it exactly on the instruction's own word: the mask
and the format fix the same fields, and the row reads the operands that the format wrote. -/
theorem row_iff_encode (i : Instr) (w : Word) :
    ∃ r, opcodeRows[i.ctorIdx]? = some r
      ∧ (rowMatches w r = true ∧ r.build w = i ↔ i.wellFormed = true ∧ w = encode i) := by
  cases i
  -- Both sides become conditions on the same fields; the formats with an immediate keep a code and a number to compare.
  all_goals
    refine ⟨_, rfl, ?_⟩
    simp [rowMatches_iff_fields, Instr.wellFormed, encode, enc3RF_eq_assemble, enc3R_eq_assemble, enc2R_eq_assemble,
      encElm_eq_assemble, enc4R_eq_assemble, eq_assemble_iff, and_all_top, and_all_register, and_all_low]
  case moveW _ m _ n =>
    have := moveIndices_iff w m n
    tauto
  case vsldiB _ _ _ n =>
    have := dfnByte_iff w n
    tauto
  case ldinssu2W _ n _ _ =>
    have := dfnHalf_iff w n
    tauto
  case stextuW _ n _ | ldinsW _ n _ _ | stextW _ n _ _ | ldinsuW _ n _ _ =>
    have := dfnWord_iff w n
    tauto
  case stextuD _ n _ | ldinsD _ n _ _ | stextD _ n _ _ | ldinsuD _ n _ _ =>
    have := dfnDouble_iff w n
    rw [Nat.lt_succ_iff] at this
    tauto
  case ldinssW _ n _ _ | ldinssuW _ n _ _ =>
    have := dfnSparse_iff w n
    tauto
  case slliV _ _ m | srliV _ _ m =>
    have := shiftAmount_iff w m
    tauto
  case vshfrB _ _ _ wr =>
    have := wr_op_iff w wr 0#1
    tauto
  case bmrV _ _ _ wr =>
    have := wr_op_iff w wr 1#1
    tauto
  all_goals tauto

/-- Settles O52: the row that decodes a word stands in the place of the instruction it builds, and in that place row and
encoding agree. -/
theorem decodeIffEncode : Obligations.DecodeIffEncode := by
  intro w i
  obtain ⟨r, hr, hiff⟩ := row_iff_encode i w
  rw [decode_eq_instr_iff_row, eq_comm (a := encode i), ← hiff]
  constructor
  · rintro ⟨r', hmem, hmatch, rfl⟩
    obtain ⟨k, hk⟩ := List.mem_iff_getElem?.mp hmem
    rw [ctorIdx_build hk, hk] at hr
    cases hr
    exact ⟨hmatch, rfl⟩
  · exact fun h => ⟨r, List.mem_of_getElem? hr, h⟩

/-! ## The verdicts -/

theorem decode_of_notCop2 (h : w.extractLsb' 26 6 ≠ 0b010010#6) : decode w = .outside .notCop2 :=
  if_pos h

theorem decode_of_baseCop2 (h : w.extractLsb' 26 6 = 0b010010#6) (hb : w.getLsbD 25 = false) :
    decode w = .outside (.baseCop2 (baseCop2Cell (w.extractLsb' 21 4))) := by
  rw [decode, if_neg (not_not.mpr h), if_pos hb]

theorem decode_of_mxa (h : w.extractLsb' 26 6 = 0b010010#6) (hb : w.getLsbD 25 = true) :
    decode w = .reserved ∨ ∃ i, decode w = .instr i := by
  rw [decode, if_neg (not_not.mpr h), if_neg (by rw [hb]; decide)]
  split
  · exact .inr ⟨_, rfl⟩
  · exact .inl rfl

/-- The two operation bits of format 4R are both allocated (R108). -/
theorem decode_of_format4R (h : w.extractLsb' 21 11 = 0b01001011101#11) : ∃ i, decode w = .instr i := by
  have hlow : w.extractLsb' 0 6 = fieldWr w ++ w.extractLsb' 0 1 :=
    (extractLsb'_eq_append_iff (m := 5) (n := 1)).mpr ⟨rfl, rfl⟩
  have hw : w = enc4R (fieldWt w) (fieldWs w) (fieldWd w) (fieldWr w) (w.extractLsb' 0 1) := by
    rw [enc4R_eq_assemble]
    exact eq_assemble_iff.mpr ⟨h, rfl, rfl, rfl, hlow⟩
  obtain hop | hop := BitVec.eq_zero_or_eq_one (w.extractLsb' 0 1)
  · exact ⟨_, (decodeIffEncode w (.vshfrB _ _ _ _)).mpr ⟨rfl, (hop ▸ hw).symm⟩⟩
  · exact ⟨_, (decodeIffEncode w (.bmrV _ _ _ _)).mpr ⟨rfl, (hop ▸ hw).symm⟩⟩

/-- Settles O53: the three parts of the encoding space in turn; inside the MXA a word is reserved when it decodes to no
instruction, which by O52 is to be no instruction's word. -/
theorem decodeVerdicts : Obligations.DecodeVerdicts := by
  intro w
  have hword : (∀ i : Instr, i.wellFormed = true → encode i ≠ w) ↔ ∀ i, decode w ≠ .instr i :=
    forall_congr' fun i => by rw [ne_eq, ne_eq, decodeIffEncode w i, not_and]
  rw [hword, ← and_assoc, ← and_assoc]
  refine ⟨?_, decode_of_format4R⟩
  by_cases h : w.extractLsb' 26 6 = 0b010010#6
  · cases hb : w.getLsbD 25 with
    | false => simp [decode_of_baseCop2 h hb, h]
    | true => obtain hd | ⟨i, hd⟩ := decode_of_mxa h hb <;> simp [hd, h]
  · simp [decode_of_notCop2 h, h]

end Sys2Proof
end

section
/-! SUPPORT. A step on a fetched word: the bytes at the pc decode as the word, and the step runs or refuses what it
decodes to (R72, R126). -/

namespace Sys2Proof.Machine

variable {s : State} {w : Word}

/-- The bytes of a word decode as the word, in either byte order (R72, R77). -/
theorem decodeBytes_bytesOfNat (e : Endian) (w : Word) : (decodeBytes e (bytesOfNat e 4 w.toNat)).1 = decode w := by
  have hval : BitVec.ofNat 32 (natOfBytes e (bytesOfNat e 4 w.toNat)) = w := by
    rw [natOfBytes_bytesOfNat]
    apply BitVec.eq_of_toNat_eq
    have := w.isLt
    rw [BitVec.toNat_ofNat]
    omega
  calc (decodeBytes e (bytesOfNat e 4 w.toNat)).1
    _ = decode (BitVec.ofNat 32 (natOfBytes e (bytesOfNat e 4 w.toNat))) := by cases e <;> rfl
    _ = decode w := by rw [hval]

theorem fetch_of_fetches (h : fetches s w) : fetch s = .next (bytesOfNat s.params.endian 4 w.toNat) := by
  obtain ⟨htrap, hslot, haligned, htext, hbytes⟩ := h
  simp [fetch, htrap, hslot, haligned, htext, hbytes]

theorem step_of_decode_instr {i : Instr} (h : fetches s w) (hd : decode w = .instr i) : step s = exec i s := by
  simp [step, stepWith, fetch_of_fetches h, decodeBytes_bytesOfNat, hd]

theorem step_of_decode_outside {r : OutsideReason} (h : fetches s w) (hd : decode w = .outside r) :
    step s = .refused (.outsideMxa r) := by
  simp [step, stepWith, fetch_of_fetches h, decodeBytes_bytesOfNat, hd]

/-- Settles O55: the fetched word is the instruction's encoding, so by O52 it decodes to the instruction. -/
theorem stepRunsInstruction : Obligations.StepRunsInstruction := by
  intro s i hwf h
  exact step_of_decode_instr h ((decodeIffEncode _ i).mpr ⟨hwf, rfl⟩)

/-- A COP2 word whose `rs` has its highest bit clear is refused under the name of its cell (R101, R122). -/
theorem step_of_baseCop2 (h : fetches s w) (hop : w.extractLsb' 26 6 = 0b010010#6) (cell : BitVec 4)
    (hrs : w.extractLsb' 21 5 = 0b0#1 ++ cell) : step s = .refused (.outsideMxa (.baseCop2 (baseCop2Cell cell))) := by
  obtain ⟨hhigh, rfl⟩ := (extractLsb'_eq_append_iff (m := 1) (n := 4)).mp hrs
  have hbit : w.getLsbD 25 = false := by rw [BitVec.getLsbD_eq_extractLsb', hhigh]; rfl
  exact step_of_decode_outside h (decode_of_baseCop2 hop hbit)

/-- Settles O56: each of the sixteen cells by its number. -/
theorem outsideWordsRefused : Obligations.OutsideWordsRefused := by
  intro s w h
  refine ⟨fun hop => step_of_decode_outside h (decode_of_notCop2 hop), fun hop => ?_⟩
  have hcell := step_of_baseCop2 h hop
  exact ⟨hcell 0, hcell 1, hcell 2, hcell 3, hcell 4, hcell 5, hcell 6, hcell 7, hcell 8, hcell 9, hcell 10, hcell 11,
    hcell 12, hcell 13, hcell 14, hcell 15⟩

end Sys2Proof.Machine
end

section
/-! SUPPORT. Single precision as numbers: the fields and classes of a bit pattern, and the numbers of signs and
magnitudes (R150 to R153). -/

namespace Sys2Proof.Machine

/-! ## Fields and classes -/

@[simp] theorem fpSign_fpPack (n : Bool) (e : BitVec 8) (f : BitVec 23) : fpSign (fpPack n e f) = n := by
  rw [fpSign, fpPack, BitVec.getLsbD_append, BitVec.getLsbD_append]
  simp

@[simp] theorem fpExp_fpPack (n : Bool) (e : BitVec 8) (f : BitVec 23) : fpExp (fpPack n e f) = e.toNat := by
  rw [fpExp, fpPack, BitVec.extractLsb'_append_eq_of_le (by decide), BitVec.extractLsb'_append_eq_right]

@[simp] theorem fpFrac_fpPack (n : Bool) (e : BitVec 8) (f : BitVec 23) : fpFrac (fpPack n e f) = f.toNat := by
  rw [fpFrac, fpPack, BitVec.extractLsb'_append_eq_right]

theorem fpFrac_lt (x : Word) : fpFrac x < 2 ^ 23 := BitVec.isLt _

theorem isNormal_iff {x : Word} : isNormal x = true ↔ 1 ≤ fpExp x ∧ fpExp x ≤ 254 := by simp [isNormal]

/-! A finite number is neither an infinity nor a NaN (R150). -/

theorem isInf_of_finite {x : Word} (h : fpExp x ≠ 255) : isInf x = false := by
  simp [isInf, h]

theorem isNaN_of_finite {x : Word} (h : fpExp x ≠ 255) : isNaN x = false := by
  simp [isNaN, h]

/-! An operand keeps its sign and its exponent field; a subnormal one becomes a zero (R152). -/

@[simp] theorem fpSign_operandSaturate (x : Word) : fpSign (operandSaturate x) = fpSign x := by
  unfold operandSaturate
  split <;> simp [fpZero]

@[simp] theorem fpExp_operandSaturate (x : Word) : fpExp (operandSaturate x) = fpExp x := by
  unfold operandSaturate
  split
  next h => simp_all [fpZero, isDenormal]
  next => rfl

theorem operandSaturate_of_normal {x : Word} (h : fpExp x ≠ 0) : operandSaturate x = x := by
  simp [operandSaturate, isDenormal, h]

theorem fpFrac_operandSaturate_of_zero {x : Word} (h : fpExp x = 0) : fpFrac (operandSaturate x) = 0 := by
  unfold operandSaturate
  split
  next => simp [fpZero]
  next hd => simpa [isDenormal, h] using hd

/-- Saturation keeps a normal number (R153). -/
theorem operandUpdate_of_normal {x : Word} (h : isNormal x = true) : operandUpdate x = x := by
  obtain ⟨h1, h2⟩ := isNormal_iff.mp h
  have h0 : fpExp x ≠ 0 := by omega
  have h255 : fpExp x ≠ 255 := by omega
  simp [operandUpdate, isInf, isNaN, isDenormal, h0, h255]

theorem operandUpdate_fpZero (n : Bool) : operandUpdate (fpZero n) = fpZero n := by cases n <;> decide

theorem isZero_fpZero (n : Bool) : isZero (fpZero n) = true := by cases n <;> decide

theorem fpZero_eq (n : Bool) : fpZero n = if n then 0x80000000#32 else 0#32 := by cases n <;> rfl

theorem operandUpdate_fpInf (n : Bool) : operandUpdate (fpInf n) = fpMax n := by cases n <;> decide

/-- Saturation leaves neither an infinity nor a NaN nor a subnormal (R153). -/
theorem operandUpdate_class (a : Word) :
    fpExp (operandUpdate a) ≠ 255 ∧ (fpExp (operandUpdate a) = 0 → fpFrac (operandUpdate a) = 0) := by
  unfold operandUpdate
  split
  next => simp [fpMax]
  next hinf =>
    split
    next => simp [fpZero]
    next hden =>
      simp only [isInf, isNaN, isDenormal, Bool.or_eq_true, Bool.and_eq_true, beq_iff_eq, bne_iff_ne] at hinf hden
      tauto

/-! ## Signs and magnitudes -/

/-- The unit of the magnitude of a bit pattern, 2^-149 (R150). -/
def singleUnit : ℚ := 2 ^ (-149 : ℤ)

/-- The unit of a product of two magnitudes, 2^-298. -/
def productUnit : ℚ := singleUnit * singleUnit

theorem productUnit_pos : 0 < productUnit := by simp [productUnit, singleUnit]

theorem two_pow_mul_singleUnit : (2 : ℚ) ^ 149 * singleUnit = 1 := by norm_num [singleUnit]

theorem two_pow_mul_productUnit : (2 : ℚ) ^ 149 * productUnit = singleUnit := by
  rw [productUnit, ← mul_assoc, two_pow_mul_singleUnit, one_mul]

/-- The number of a sign and a magnitude in units of 2^-298. -/
def signedValue (n : Bool) (m : Nat) : ℚ := (if n then -1 else 1) * (m * productUnit)

theorem signedValue_not (n : Bool) (m : Nat) : signedValue (!n) m = -signedValue n m := by
  cases n <;> simp [signedValue]

@[simp] theorem signedValue_zero (n : Bool) : signedValue n 0 = 0 := by simp [signedValue]

theorem signedValue_true (m : Nat) : signedValue true m = -signedValue false m := signedValue_not false m

theorem signedValue_false_nonneg (m : Nat) : 0 ≤ signedValue false m := by
  simp [signedValue, mul_nonneg, productUnit_pos.le]

theorem abs_signedValue (n : Bool) (m : Nat) : |signedValue n m| = signedValue false m := by
  have hpos := signedValue_false_nonneg m
  cases n with
  | false => exact abs_of_nonneg hpos
  | true => rw [signedValue_true, abs_neg, abs_of_nonneg hpos]

theorem signedValue_lt_signedValue {a b : Nat} : signedValue false a < signedValue false b ↔ a < b := by
  simp [signedValue, mul_lt_mul_iff_left₀ productUnit_pos]

/-- Equal numbers have equal magnitudes. -/
theorem magnitude_eq_of_signedValue_eq {n k : Bool} {a b : Nat} (h : signedValue n a = signedValue k b) : a = b := by
  have habs : signedValue false a = signedValue false b := by rw [← abs_signedValue n, h, abs_signedValue]
  simpa [signedValue, productUnit_pos.ne'] using habs

theorem signedValue_eq_zero_iff {n : Bool} {m : Nat} : signedValue n m = 0 ↔ m = 0 :=
  ⟨fun h => magnitude_eq_of_signedValue_eq (h.trans (signedValue_zero false).symm),
    fun h => h ▸ signedValue_zero n⟩

theorem signedValue_pos_iff {n : Bool} {m : Nat} : 0 < signedValue n m ↔ n = false ∧ m ≠ 0 := by
  have hfalse : 0 < signedValue false m ↔ m ≠ 0 := by
    rw [← signedValue_zero false, signedValue_lt_signedValue, Nat.pos_iff_ne_zero]
  cases n with
  | false => simp [hfalse]
  | true => simp [signedValue_true, signedValue_false_nonneg m]

theorem signedValue_nonneg_iff {n : Bool} {m : Nat} : 0 ≤ signedValue n m ↔ m = 0 ∨ n = false := by
  rw [← not_lt, ← neg_pos, ← signedValue_not, signedValue_pos_iff]
  cases n <;> simp

theorem signedValue_nonpos_iff {n : Bool} {m : Nat} : signedValue n m ≤ 0 ↔ m = 0 ∨ n = true := by
  rw [← neg_nonneg, ← signedValue_not, signedValue_nonneg_iff, Bool.not_eq_false']

theorem signedValue_fpMaxMag : signedValue false fpMaxMag = maxSingle := by
  have hmag : fpMaxMag = (2 ^ 24 - 1) * (2 ^ 104 * 2 ^ 149 * 2 ^ 149) := by
    rw [fpMaxMag, ← Nat.pow_add, ← Nat.pow_add]
  calc signedValue false fpMaxMag
    _ = (2 ^ 24 - 1) * 2 ^ 104 * (2 ^ 149 * (2 ^ 149 * productUnit)) := by
      rw [signedValue, hmag]
      push_cast
      ring
    _ = (2 ^ 24 - 1) * 2 ^ 104 := by rw [two_pow_mul_productUnit, two_pow_mul_singleUnit, mul_one]

/-- A term overflows upwards when its sign is plus and its magnitude is out of range (R158 1). -/
theorem maxSingle_lt_signedValue_iff {n : Bool} {m : Nat} :
    maxSingle < signedValue n m ↔ n = false ∧ fpMaxMag < m := by
  rw [← signedValue_fpMaxMag]
  cases n with
  | false => simp [signedValue_lt_signedValue]
  | true =>
    have hm : signedValue true m ≤ 0 := signedValue_nonpos_iff.mpr (.inr rfl)
    simpa using hm.trans (signedValue_false_nonneg fpMaxMag)

/-- A term overflows downwards when its sign is minus and its magnitude is out of range (R158 1). -/
theorem signedValue_lt_neg_maxSingle_iff {n : Bool} {m : Nat} :
    signedValue n m < -maxSingle ↔ n = true ∧ fpMaxMag < m := by
  rw [lt_neg, ← signedValue_not, maxSingle_lt_signedValue_iff, Bool.not_eq_false']

/-- `addSigned` is the exact sum. -/
theorem signedValue_addSigned (n : Bool) (a : Nat) (k : Bool) (b : Nat) :
    signedValue (addSigned n a k b).1 (addSigned n a k b).2 = signedValue n a + signedValue k b := by
  unfold addSigned
  split
  next h =>
    subst h
    simp only [signedValue]
    push_cast
    ring
  next h =>
    have hk : k = !n := Bool.eq_not.mpr (Ne.symm h)
    subst hk
    split
    next hle =>
      rw [signedValue_not]
      simp only [signedValue, Nat.cast_sub hle]
      ring
    next hlt =>
      have hle : a ≤ b := by omega
      simp only [signedValue_not]
      simp only [signedValue, Nat.cast_sub hle]
      ring

/-! ## Bit patterns as signs and magnitudes -/

theorem singleValue_eq (x : Word) : singleValue x = (if fpSign x then -1 else 1) * (fpMag x * singleUnit) := by
  rw [singleValue, fpMag, singleUnit]
  congr 1
  split
  next => rfl
  next h =>
    have hexp : (fpExp x : ℤ) - 150 = ((fpExp x - 1 : ℕ) : ℤ) + (-149) := by omega
    rw [hexp, zpow_add₀ two_ne_zero, zpow_natCast, Nat.cast_mul, Nat.cast_pow, Nat.cast_ofNat, mul_assoc]

/-- A magnitude in units of 2^-149 counts 2^149 units of 2^-298 (R150). -/
theorem singleValue_eq_signedValue (x : Word) : singleValue x = signedValue (fpSign x) (fpMag x * 2 ^ 149) := by
  rw [singleValue_eq, signedValue, ← two_pow_mul_productUnit, Nat.cast_mul, Nat.cast_pow, Nat.cast_ofNat,
    mul_assoc (fpMag x : ℚ)]

/-- An operand enters the arithmetic as the number of its saturated bit pattern (R152). -/
theorem operandValue_eq_singleValue (x : Word) : operandValue x = singleValue (operandSaturate x) := by
  rw [operandValue]
  split
  next h => simp [singleValue, h, fpFrac_operandSaturate_of_zero h]
  next h => rw [operandSaturate_of_normal h]

/-- The magnitude of an operand, in units of 2^-149 (R152). -/
def operandMag (x : Word) : Nat := fpMag (operandSaturate x)

theorem operandMag_of_zero {x : Word} (h : fpExp x = 0) : operandMag x = 0 := by
  rw [operandMag, fpMag, if_pos (by rw [fpExp_operandSaturate, h]), fpFrac_operandSaturate_of_zero h]

/-- A term of FCMUL.W: the sign is the product of the signs, the magnitude the product of the magnitudes. -/
theorem operandValue_mul (x y : Word) :
    operandValue x * operandValue y = signedValue (fpSign x ^^ fpSign y) (operandMag x * operandMag y) := by
  simp only [operandValue_eq_singleValue, singleValue_eq, fpSign_operandSaturate, signedValue, operandMag, productUnit,
    Nat.cast_mul]
  cases fpSign x <;> cases fpSign y <;> simp <;> ring

end Sys2Proof.Machine
end

section
/-! SUPPORT. FCMUL.W: exact normal numbers as magnitudes, one part of a complex product by the kinds of its terms, and
the instruction as a whole (R152 to R158). -/

namespace Sys2Proof.Machine

/-! ## Normal magnitudes -/

/-- A bit pattern with its sign replaced. -/
def withSign (n : Bool) (x : Word) : Word := fpPack n (x.extractLsb' 23 8) (x.extractLsb' 0 23)

@[simp] theorem fpSign_withSign (n : Bool) (x : Word) : fpSign (withSign n x) = n := fpSign_fpPack _ _ _

@[simp] theorem fpExp_withSign (n : Bool) (x : Word) : fpExp (withSign n x) = fpExp x := fpExp_fpPack _ _ _

@[simp] theorem fpFrac_withSign (n : Bool) (x : Word) : fpFrac (withSign n x) = fpFrac x := fpFrac_fpPack _ _ _

@[simp] theorem isNormal_withSign (n : Bool) (x : Word) : isNormal (withSign n x) = isNormal x := by
  simp only [isNormal, fpExp_withSign]

theorem singleValue_withSign (n : Bool) (x : Word) :
    singleValue (withSign n x) = signedValue n (fpMag x * 2 ^ 149) := by
  simp only [singleValue_eq_signedValue, fpMag, fpSign_withSign, fpExp_withSign, fpFrac_withSign]

variable {x : Word}

/-- The magnitude of a normal number in units of 2^-298. -/
theorem normal_magnitude (h : isNormal x = true) :
    fpMag x * 2 ^ 149 = (2 ^ 23 + fpFrac x) * 2 ^ (fpExp x + 148) := by
  obtain ⟨h1, -⟩ := isNormal_iff.mp h
  rw [fpMag, if_neg (by omega), mul_assoc, ← Nat.pow_add, show fpExp x - 1 + 149 = fpExp x + 148 by omega]

theorem normal_magnitude_ne_zero (h : isNormal x = true) : fpMag x * 2 ^ 149 ≠ 0 := by
  rw [normal_magnitude h]
  positivity

/-- The leading one of a normal magnitude stands where the exponent field says. -/
theorem log2_normal_magnitude (h : isNormal x = true) : (fpMag x * 2 ^ 149).log2 = fpExp x + 171 := by
  have hfrac := fpFrac_lt x
  have hpos : 0 < 2 ^ (fpExp x + 148) := Nat.two_pow_pos _
  have hlow : 2 ^ (fpExp x + 171) = 2 ^ 23 * 2 ^ (fpExp x + 148) := by
    rw [show fpExp x + 171 = 23 + (fpExp x + 148) by omega, Nat.pow_add]
  have hhigh : 2 ^ (fpExp x + 171 + 1) = 2 ^ 24 * 2 ^ (fpExp x + 148) := by
    rw [show fpExp x + 171 + 1 = 24 + (fpExp x + 148) by omega, Nat.pow_add]
  rw [Nat.log2_eq_iff (normal_magnitude_ne_zero h), normal_magnitude h, hlow, hhigh]
  exact ⟨Nat.mul_le_mul_right _ (by omega), Nat.mul_lt_mul_of_pos_right (by omega) hpos⟩

/-- A normal magnitude is at least the smallest one. -/
theorem two_pow_le_normal_magnitude (h : isNormal x = true) : 2 ^ 172 ≤ fpMag x * 2 ^ 149 := by
  obtain ⟨h1, -⟩ := isNormal_iff.mp h
  rw [← Nat.le_log2 (normal_magnitude_ne_zero h), log2_normal_magnitude h]
  omega

/-- A normal magnitude is in range. -/
theorem normal_magnitude_le_fpMaxMag (h : isNormal x = true) : fpMag x * 2 ^ 149 ≤ fpMaxMag := by
  obtain ⟨-, h2⟩ := isNormal_iff.mp h
  have hfrac := fpFrac_lt x
  have hexp : fpExp x + 148 ≤ 402 := by omega
  rw [normal_magnitude h, fpMaxMag]
  gcongr
  · omega
  · decide

/-- The normal number of a normal magnitude is the one it comes from, with the sign asked for. -/
theorem fpExact_normal_magnitude (n : Bool) (h : isNormal x = true) :
    fpExact n (fpMag x * 2 ^ 149) = some (withSign n x) := by
  obtain ⟨h1, h2⟩ := isNormal_iff.mp h
  have hpos : 0 < 2 ^ (fpExp x + 148) := Nat.two_pow_pos _
  have hshift : fpExp x + 171 - 23 = fpExp x + 148 := by omega
  have hexp : BitVec.ofNat 8 (fpExp x) = x.extractLsb' 23 8 := by rw [fpExp, BitVec.ofNat_toNat, BitVec.setWidth_eq]
  have hfrac : BitVec.ofNat 23 (2 ^ 23 + fpFrac x) = x.extractLsb' 0 23 := by
    apply BitVec.eq_of_toNat_eq
    rw [BitVec.toNat_ofNat, Nat.add_mod_left, Nat.mod_eq_of_lt (fpFrac_lt x), fpFrac]
  rw [fpExact, log2_normal_magnitude h, hshift, normal_magnitude h, Nat.mul_mod_left, Nat.mul_div_cancel _ hpos,
    Nat.add_sub_cancel, hexp, hfrac]
  exact if_pos ⟨by omega, by omega, rfl⟩

/-- A number that is zero or exactly a normal one has magnitude zero or that of a normal number (R156 ii). -/
theorem magnitude_of_isSingle {n : Bool} {m : Nat} (h : isSingle (signedValue n m)) :
    m = 0 ∨ ∃ x, isNormal x = true ∧ m = fpMag x * 2 ^ 149 := by
  obtain h0 | ⟨x, hx, hv⟩ := h
  · exact .inl (signedValue_eq_zero_iff.mp h0)
  · rw [singleValue_eq_signedValue] at hv
    exact .inr ⟨x, hx, (magnitude_eq_of_signedValue_eq hv).symm⟩

theorem le_fpMaxMag_of_isSingle {n : Bool} {m : Nat} (h : isSingle (signedValue n m)) : m ≤ fpMaxMag := by
  obtain rfl | ⟨x, hx, rfl⟩ := magnitude_of_isSingle h
  · exact Nat.zero_le _
  · exact normal_magnitude_le_fpMaxMag hx

theorem fpExactOrZero_of_isSingle {n : Bool} {m : Nat} (h : isSingle (signedValue n m)) : fpExactOrZero m = true := by
  obtain rfl | ⟨x, hx, rfl⟩ := magnitude_of_isSingle h
  · rfl
  · simp only [fpExactOrZero, fpExact_normal_magnitude false hx, Option.isSome_some, Bool.or_true]

/-- A number with its sign changed is as exact as the number. -/
theorem isSingle_neg {v : ℚ} (h : isSingle v) : isSingle (-v) := by
  obtain rfl | ⟨x, hx, rfl⟩ := h
  · exact .inl neg_zero
  · refine .inr ⟨withSign (!fpSign x) x, by rw [isNormal_withSign, hx], ?_⟩
    rw [singleValue_withSign, signedValue_not, ← singleValue_eq_signedValue]

/-! ## The sum of two finite terms -/

variable {free : Word} {np nr : Bool} {pq rs : Nat}

/-- Two terms that are zero give a zero, of their sign where they agree (R156 iii, R158 2). -/
theorem fcmulFinite_zero : fcmulFinite free np 0 nr 0 = fpZero (if np = nr then np else fpSign free) :=
  if_pos ⟨rfl, rfl⟩

/-- A term of sign `n` out of range, and the other zero or of the same sign: the sum overflows to that sign (R158 1). -/
theorem fcmulFinite_overflow {n : Bool}
    (h : (n = np ∧ fpMaxMag < pq) ∧ (rs = 0 ∨ n = nr) ∨ (n = nr ∧ fpMaxMag < rs) ∧ (pq = 0 ∨ n = np)) :
    fcmulFinite free np pq nr rs = fpInf n := by
  have hnot : ¬(pq = 0 ∧ rs = 0) := by omega
  rw [fcmulFinite, if_neg hnot]
  split
  next hp =>
    obtain ⟨⟨rfl, -⟩, -⟩ | ⟨-, rfl | rfl⟩ := h
    · rfl
    · omega
    · rfl
  next hp =>
    obtain ⟨⟨rfl, hpq⟩, hr⟩ | ⟨⟨rfl, hrs⟩, hq⟩ := h
    · exact absurd ⟨hpq, hr.imp_right Eq.symm⟩ hp
    · rw [if_pos ⟨hrs, hq⟩]

/-- A sum that is exactly a normal number is that number (R156 ii). -/
theorem fcmulSum_normal (n : Bool) (h : isNormal x = true) :
    fcmulSum free (n, fpMag x * 2 ^ 149) = withSign n x := by
  rw [fcmulSum, if_neg (normal_magnitude_ne_zero h), if_neg (normal_magnitude_le_fpMaxMag h).not_gt,
    if_neg (two_pow_le_normal_magnitude h).not_gt, fpExact_normal_magnitude n h, Option.getD_some]

/-- Two exact terms and an exact sum other than zero give the normal number of the sum (R156 ii). -/
theorem fcmulFinite_exact (hp : isSingle (signedValue np pq)) (hr : isSingle (signedValue nr rs))
    (hs : isSingle (signedValue np pq + signedValue nr rs)) (h0 : signedValue np pq + signedValue nr rs ≠ 0) :
    isNormal (fcmulFinite free np pq nr rs) = true
      ∧ singleValue (fcmulFinite free np pq nr rs) = signedValue np pq + signedValue nr rs := by
  have hsum := signedValue_addSigned np pq nr rs
  rw [← hsum] at hs h0 ⊢
  have hzero : ¬(pq = 0 ∧ rs = 0) := by
    rintro ⟨rfl, rfl⟩
    exact h0 (by rw [hsum, signedValue_zero, signedValue_zero, add_zero])
  have hpq : ¬fpMaxMag < pq := (le_fpMaxMag_of_isSingle hp).not_gt
  have hrs : ¬fpMaxMag < rs := (le_fpMaxMag_of_isSingle hr).not_gt
  have hfree : fcmulFinite free np pq nr rs = fcmulSum free (addSigned np pq nr rs) := by
    rw [fcmulFinite, if_neg hzero, if_neg fun h => hpq h.1, if_neg fun h => hrs h.1, fpExactOrZero_of_isSingle hp,
      fpExactOrZero_of_isSingle hr, Bool.and_self, if_pos rfl]
  obtain hm | ⟨x, hx, hm⟩ := magnitude_of_isSingle hs
  · exact absurd (signedValue_eq_zero_iff.mpr hm) h0
  · have hnormal := fcmulSum_normal (free := free) (addSigned np pq nr rs).1 hx
    rw [← hm] at hnormal
    rw [hfree, hnormal, isNormal_withSign, singleValue_withSign, ← hm]
    exact ⟨hx, rfl⟩

/-! ## One part of a complex product -/

/-- One part of a complex product with its saturations: `p*q - r*s` where `subtract`, else `p*q + r*s` (R152 to
R154). -/
def fcmulPart (rm : BitVec 2) (p q r s : Word) (subtract : Bool) : Word :=
  operandUpdate
    (fcmulArith rm (operandSaturate p) (operandSaturate q) (operandSaturate r) (operandSaturate s) subtract)

/-- The second term of a part, with the sign it enters the sum with. -/
def secondTerm (r s : Word) (subtract : Bool) : ℚ :=
  if subtract then -(operandValue r * operandValue s) else operandValue r * operandValue s

theorem secondTerm_eq (r s : Word) (subtract : Bool) :
    secondTerm r s subtract = signedValue ((fpSign r ^^ fpSign s) ^^ subtract) (operandMag r * operandMag s) := by
  cases subtract with
  | false => simp [secondTerm, operandValue_mul]
  | true => simp [secondTerm, operandValue_mul, signedValue_not]

theorem operandMag_mul_of_zero {p q : Word} (h : fpExp p = 0 ∨ fpExp q = 0) : operandMag p * operandMag q = 0 := by
  obtain h | h := h <;> simp [operandMag_of_zero h]

section
variable {rm : BitVec 2} {p q r s : Word} {subtract : Bool}
  (hp : fpExp p ≠ 255) (hq : fpExp q ≠ 255) (hr : fpExp r ≠ 255) (hs : fpExp s ≠ 255)
include hp hq hr hs

theorem fcmulArith_finite : fcmulArith rm p q r s subtract = fcmulFinite (Config.fcmulOpen rm p q r s subtract)
    (fpSign p ^^ fpSign q) (fpMag p * fpMag q) ((fpSign r ^^ fpSign s) ^^ subtract) (fpMag r * fpMag s) := by
  simp [fcmulArith, isInf_of_finite, isNaN_of_finite, hp, hq, hr, hs]

/-- Finite operands enter the sum of two finite terms with their signs and magnitudes; only what the spec leaves open
depends on more. -/
theorem fcmulPart_finite : ∃ free, fcmulPart rm p q r s subtract = operandUpdate (fcmulFinite free
    (fpSign p ^^ fpSign q) (operandMag p * operandMag q)
    ((fpSign r ^^ fpSign s) ^^ subtract) (operandMag r * operandMag s)) := by
  rw [← fpExp_operandSaturate] at hp hq hr hs
  have hsum := congrArg operandUpdate (fcmulArith_finite (rm := rm) (subtract := subtract) hp hq hr hs)
  simp only [fpSign_operandSaturate] at hsum
  exact ⟨_, hsum⟩

/-- A part whose terms and whose sum are exact, the sum other than zero, is the normal number of the sum (R156 ii). -/
theorem fcmulPart_exact {v : ℚ} (hv : v = operandValue p * operandValue q + secondTerm r s subtract)
    (hx : isSingle (operandValue p * operandValue q)) (hy : isSingle (secondTerm r s subtract)) (hsum : isSingle v)
    (h0 : v ≠ 0) :
    isNormal (fcmulPart rm p q r s subtract) = true ∧ singleValue (fcmulPart rm p q r s subtract) = v := by
  subst hv
  obtain ⟨free, hpart⟩ := fcmulPart_finite (rm := rm) (subtract := subtract) hp hq hr hs
  rw [operandValue_mul] at hx hsum h0 ⊢
  rw [secondTerm_eq] at hy hsum h0 ⊢
  obtain ⟨hnormal, hvalue⟩ := fcmulFinite_exact (free := free) hx hy hsum h0
  rw [hpart, operandUpdate_of_normal hnormal]
  exact ⟨hnormal, hvalue⟩

/-- A part with a term above the largest number, the other not below zero, is the largest number (R158 1). -/
theorem fcmulPart_overflow_up {x y : ℚ} (hx : x = operandValue p * operandValue q)
    (hy : y = secondTerm r s subtract) (h : maxSingle < x ∧ 0 ≤ y ∨ maxSingle < y ∧ 0 ≤ x) :
    fcmulPart rm p q r s subtract = 0x7F7FFFFF#32 := by
  obtain ⟨free, hpart⟩ := fcmulPart_finite (rm := rm) (subtract := subtract) hp hq hr hs
  rw [hx, hy, operandValue_mul, secondTerm_eq] at h
  simp only [maxSingle_lt_signedValue_iff, signedValue_nonneg_iff, eq_comm (b := false)] at h
  rw [hpart, fcmulFinite_overflow h, operandUpdate_fpInf]
  rfl

/-- A part with a term below the most negative number, the other not above zero, is the most negative number
(R158 1). -/
theorem fcmulPart_overflow_down {x y : ℚ} (hx : x = operandValue p * operandValue q)
    (hy : y = secondTerm r s subtract) (h : x < -maxSingle ∧ y ≤ 0 ∨ y < -maxSingle ∧ x ≤ 0) :
    fcmulPart rm p q r s subtract = 0xFF7FFFFF#32 := by
  obtain ⟨free, hpart⟩ := fcmulPart_finite (rm := rm) (subtract := subtract) hp hq hr hs
  rw [hx, hy, operandValue_mul, secondTerm_eq] at h
  simp only [signedValue_lt_neg_maxSingle_iff, signedValue_nonpos_iff, eq_comm (b := true)] at h
  rw [hpart, fcmulFinite_overflow h, operandUpdate_fpInf]
  rfl

/-- A part with a zero operand in each term is a zero, of the sign of the terms where they agree (R156 iii, R158 2). -/
theorem fcmulPart_zero (hpq : fpExp p = 0 ∨ fpExp q = 0) (hrs : fpExp r = 0 ∨ fpExp s = 0) :
    ∃ n, fcmulPart rm p q r s subtract = fpZero n
      ∧ ((fpSign p ^^ fpSign q) = ((fpSign r ^^ fpSign s) ^^ subtract) → n = (fpSign p ^^ fpSign q)) := by
  obtain ⟨free, hpart⟩ := fcmulPart_finite (rm := rm) (subtract := subtract) hp hq hr hs
  rw [hpart, operandMag_mul_of_zero hpq, operandMag_mul_of_zero hrs, fcmulFinite_zero, operandUpdate_fpZero]
  exact ⟨_, rfl, fun h => if_pos h⟩

end

/-! ## The four words of a result -/

/-- The real part of complex element `k`, its lower word (R32, R154). -/
theorem complexMulVec_real (rm : BitVec 2) (a b : Vec) {k : Nat} (hk : k < 2) :
    (complexMulVec rm a b).extractLsb' (64 * k) 32
      = fcmulPart rm (a.extractLsb' (64 * k) 32) (b.extractLsb' (64 * k) 32)
          (a.extractLsb' (64 * k + 32) 32) (b.extractLsb' (64 * k + 32) 32) true := by
  have helem : (complexMulVec rm a b).extractLsb' (64 * k) 64 = complexMul rm (elem 64 a k) (elem 64 b k) :=
    elem_lanes _ 2 k hk (by decide)
  rw [← Nat.add_zero (64 * k), ← extractLsb'_extractLsb' (n := 64) (by decide), Nat.add_zero, helem, complexMul,
    BitVec.extractLsb'_append_eq_right, fcmulPart]
  simp only [elem, extractLsb'_extractLsb' (Nat.le_refl _), extractLsb'_extractLsb' (show 32 * 0 + 32 ≤ 64 by decide),
    Nat.mul_zero, Nat.mul_one, Nat.add_zero]

/-- The imaginary part of complex element `k`, its upper word (R32, R154). -/
theorem complexMulVec_imag (rm : BitVec 2) (a b : Vec) {k : Nat} (hk : k < 2) :
    (complexMulVec rm a b).extractLsb' (64 * k + 32) 32
      = fcmulPart rm (a.extractLsb' (64 * k) 32) (b.extractLsb' (64 * k + 32) 32)
          (a.extractLsb' (64 * k + 32) 32) (b.extractLsb' (64 * k) 32) false := by
  have helem : (complexMulVec rm a b).extractLsb' (64 * k) 64 = complexMul rm (elem 64 a k) (elem 64 b k) :=
    elem_lanes _ 2 k hk (by decide)
  rw [← extractLsb'_extractLsb' (n := 64) (by decide), helem, complexMul,
    BitVec.extractLsb'_append_eq_left, fcmulPart]
  simp only [elem, extractLsb'_extractLsb' (show 32 * 0 + 32 ≤ 64 by decide),
    extractLsb'_extractLsb' (show 32 * 1 + 32 ≤ 64 by decide), Nat.mul_zero, Nat.mul_one, Nat.add_zero]

/-! ## The instruction -/

theorem msacsrCause_withCauseFlags (c : Word) (cause : BitVec 6) (flags : BitVec 5) :
    msacsrCause (msacsrWithCauseFlags c cause flags) = cause := by
  apply BitVec.eq_of_getLsbD_eq
  intro k hk
  rw [msacsrCause, msacsrWithCauseFlags, BitVec.getLsbD_extractLsb']
  interval_cases k <;> simp

theorem msacsrFlags_withCauseFlags (c : Word) (cause : BitVec 6) (flags : BitVec 5) :
    msacsrFlags (msacsrWithCauseFlags c cause flags) = flags := by
  apply BitVec.eq_of_getLsbD_eq
  intro k hk
  rw [msacsrFlags, msacsrWithCauseFlags, BitVec.getLsbD_extractLsb']
  interval_cases k <;> simp

/-- The next state of FCMUL.W. -/
def fcmulNext (wd ws wt : VReg) (s : State) : State :=
  { drawFpStatus (writeWr s wd (complexMulVec (msacsrRM s.msacsr) (readWr s ws) (readWr s wt))) with pc := nextPc s }

variable {s : State}

theorem exec_fcmulW (wd ws wt : VReg) (h : executes s = true) :
    exec (.fcmulW wd ws wt) s = .next (fcmulNext wd ws wt s) :=
  mxa_of_executes h

/-- The new `WR[wd]` holds the two complex products (R154). -/
theorem readWr_fcmulNext (wd ws wt : VReg) (s : State) :
    readWr (fcmulNext wd ws wt s) wd = complexMulVec (msacsrRM s.msacsr) (readWr s ws) (readWr s wt) :=
  readWr_writeWr_self s wd _

/-- Settles O23: FCMUL.W's writes are those of the effect `vectorAndStatus`, and its draw fills Cause and Flags. -/
theorem fcmulCompletes : Obligations.FcmulCompletes := by
  intro s wd ws wt h
  exact ⟨fcmulNext wd ws wt s, exec_fcmulW wd ws wt h, drawFpStatus_writeWr_wrote s wd _,
    msacsrCause_withCauseFlags _ _ _, msacsrFlags_withCauseFlags _ _ _, rfl⟩

/-- Settles O24: each part by `fcmulPart_exact`; in the real part the second term enters with its sign changed. -/
theorem fcmulExact : Obligations.FcmulExact := by
  intro s wd ws wt k h hk
  refine ⟨_, exec_fcmulW wd ws wt h, ?_⟩
  rintro ar ai br bi har hai hbr hbi far fai fbr fbi
  rw [readWr_fcmulNext, complexMulVec_real _ _ _ hk, complexMulVec_imag _ _ _ hk, ← har, ← hai, ← hbr, ← hbi]
  constructor
  · rintro x y v rfl rfl hv hx hy hs h0
    exact fcmulPart_exact far fbr fai fbi (hv.trans (sub_eq_add_neg _ _)) hx (isSingle_neg hy) hs h0
  · rintro x y v rfl rfl hv hx hy hs h0
    exact fcmulPart_exact far fbi fai fbr hv hx hy hs h0

/-- Settles O25: each part by the lemmas on terms out of range and on zero terms. -/
theorem fcmulOverflowAndZero : Obligations.FcmulOverflowAndZero := by
  intro s wd ws wt k h hk
  refine ⟨_, exec_fcmulW wd ws wt h, ?_⟩
  rintro ar ai br bi har hai hbr hbi far fai fbr fbi
  rw [readWr_fcmulNext, complexMulVec_real _ _ _ hk, complexMulVec_imag _ _ _ hk, ← har, ← hai, ← hbr, ← hbi]
  have hreal := fcmulPart_zero (rm := msacsrRM s.msacsr) (subtract := true) far fbr fai fbi
  have himag := fcmulPart_zero (rm := msacsrRM s.msacsr) (subtract := false) far fbi fai fbr
  refine ⟨fun x y hx hy => ?_, fun x y hx hy => ?_, fun zar zai zbr zbi => ?_, fun negative zr zi hr hi => ?_,
    fun negative zr zi hr hi => ?_⟩
  · exact ⟨fcmulPart_overflow_up far fbr fai fbi hx hy, fcmulPart_overflow_down far fbr fai fbi hx hy⟩
  · exact ⟨fcmulPart_overflow_up far fbi fai fbr hx hy, fcmulPart_overflow_down far fbi fai fbr hx hy⟩
  · obtain ⟨_, hre, -⟩ := hreal (.inl zar) (.inl zai)
    obtain ⟨_, him, -⟩ := himag (.inl zar) (.inl zai)
    rw [hre, him]
    exact ⟨isZero_fpZero _, isZero_fpZero _⟩
  · obtain ⟨_, hre, hsign⟩ := hreal zr zi
    rw [hre, hsign (by rw [← hr, hi, Bool.xor_true]), ← hr, fpZero_eq]
  · obtain ⟨_, him, hsign⟩ := himag zr zi
    rw [him, hsign (by rw [← hr, hi, Bool.xor_false]), ← hr, fpZero_eq]

/-- Settles O26: every word of the result is a real or an imaginary part, and the last step of both is saturation. -/
theorem fcmulSaturates : Obligations.FcmulSaturates := by
  intro s wd ws wt h
  refine ⟨_, exec_fcmulW wd ws wt h, fun i hi => ?_⟩
  rw [readWr_fcmulNext]
  obtain ⟨k, rfl | rfl⟩ := Nat.even_or_odd' i
  · rw [show 32 * (2 * k) = 64 * k by omega, complexMulVec_real _ _ _ (by omega)]
    exact operandUpdate_class _
  · rw [show 32 * (2 * k + 1) = 64 * k + 32 by omega, complexMulVec_imag _ _ _ (by omega)]
    exact operandUpdate_class _

end Sys2Proof.Machine
end

section
/-! SUPPORT. Sample words of the spec (R126). -/

namespace Sys2Proof

/-- Settles O54: each word is its instruction's encoding, so by O52 it decodes to the instruction. -/
theorem sampleWords : Obligations.SampleWords := by
  have hdecode {w : Word} {i : Instr} (hwf : i.wellFormed = true) (hw : encode i = w) : decode w = .instr i :=
    (decodeIffEncode w i).mpr ⟨hwf, hw⟩
  exact ⟨hdecode rfl rfl, hdecode rfl rfl, hdecode rfl rfl, hdecode rfl rfl, hdecode rfl rfl, hdecode rfl rfl,
    hdecode rfl rfl, hdecode rfl rfl, hdecode rfl rfl, hdecode rfl rfl, hdecode rfl rfl⟩

end Sys2Proof
end

section
/-! SUPPORT. The bitwise instructions: counting the ones below a bit, the bits of a register built from elements, and one
law for each value function of the family. -/

namespace Sys2Proof.Machine

/-! ## Counting ones -/

theorem countOnes_eq_length_filter {N : Nat} (x : BitVec N) (n : Nat) :
    countOnes x n = ((List.range n).filter fun i => x.getLsbD i).length := by
  induction n with
  | zero => rfl
  | succ n ih => cases h : x.getLsbD n <;> simp [countOnes, List.range_succ, ih, h]

theorem countOnes_le {N : Nat} (x : BitVec N) (n : Nat) : countOnes x n ≤ n := by
  rw [countOnes_eq_length_filter]
  exact (List.length_filter_le _ _).trans_eq List.length_range

/-- In the rising list of the ones of `x` below `n`, a one `i` stands at the place that counts the ones below it. -/
theorem getElem?_ones_countOnes {N : Nat} (x : BitVec N) {n i : Nat} (hi : i < n) (hx : x.getLsbD i = true) :
    ((List.range n).filter fun j => x.getLsbD j)[countOnes x i]? = some i := by
  induction n with
  | zero => omega
  | succ n ih =>
    rw [List.range_succ, List.filter_append]
    rcases Nat.lt_succ_iff_lt_or_eq.mp hi with hlt | rfl
    · obtain ⟨hlen, -⟩ := List.getElem?_eq_some_iff.mp (ih hlt)
      rw [List.getElem?_append_left hlen, ih hlt]
    · rw [countOnes_eq_length_filter, List.getElem?_append_right (Nat.le_refl _)]
      simp [hx]

/-! ## Bits of a register built from elements -/

/-- Bit `k` of `lanes` is bit `k % w` of element `k / w` (R14). -/
theorem getLsbD_lanes_div_mod {N w : Nat} (f : Nat → BitVec w) {n k : Nat} (hk : k < w * n) (hN : w * n ≤ N) :
    (lanes N w f n).getLsbD k = (f (k / w)).getLsbD (k % w) := by
  have hw : 0 < w := Nat.pos_of_mul_pos_right (Nat.zero_lt_of_lt hk)
  have h := getLsbD_lanes f n (k / w) (k % w) (Nat.div_lt_of_lt_mul hk) (Nat.mod_lt k hw) hN
  rwa [Nat.div_add_mod] at h

/-- A register built bit by bit. -/
theorem getLsbD_lanes_ofBool {N n : Nat} (f : Nat → Bool) (k : Nat) (hN : n ≤ N) :
    (lanes N 1 (fun i => BitVec.ofBool (f i)) n).getLsbD k = (decide (k < n) && f k) := by
  by_cases hk : k < n
  · rw [getLsbD_lanes_div_mod _ (by omega) (by omega)]
    simp [hk, Nat.mod_one]
  · rw [lanes_high _ _ _ (by omega)]
    simp [hk]

/-! ## The value functions -/

theorem getLsbD_bitExtract (w : Nat) (a : Vec) (k : Nat) :
    (bitExtract w a).getLsbD k = (decide (k < 128 / w) && a.getLsbD (w * k + w - 1)) :=
  getLsbD_lanes_ofBool _ k (Nat.div_le_self 128 w)

theorem getLsbD_bitExpand {w : Nat} (a : Vec) {k : Nat} (hw : w ∣ 128) (hk : k < 128) :
    (bitExpand w a).getLsbD k = a.getLsbD (k / w) := by
  have hlanes : w * (128 / w) = 128 := Nat.mul_div_cancel' hw
  have hmod : k % w < w := Nat.mod_lt k (Nat.pos_of_dvd_of_pos hw (by decide))
  rw [bitExpand, getLsbD_lanes_div_mod _ (by omega) (by omega)]
  cases a.getLsbD (k / w) <;> simp [hmod]

theorem getLsbD_bitMaskUpdate (src : BmuSrcIndex) (a b c : Vec) {k : Nat} (hk : k < 128) :
    (bitMaskUpdate src a b c).getLsbD k =
      if k ≤ c.toNat % 16 then b.getLsbD k && a.getLsbD (if src = .i then k else countOnes b k) else b.getLsbD k := by
  have hbound : (c.extractLsb' 0 4).toNat = c.toNat % 16 := by simp
  rw [bitMaskUpdate, getLsbD_lanes_ofBool _ _ (Nat.le_refl 128), hbound]
  cases src <;> simp [hk]

theorem shiftAmount_eq (c : Vec) : shiftAmount c = c.toNat % 128 := by simp [shiftAmount]

theorem toNat_shiftLeft_eq_mul (x : Vec) (m : Nat) : (x <<< m).toNat = x.toNat * 2 ^ m % 2 ^ 128 := by
  rw [BitVec.toNat_shiftLeft, Nat.shiftLeft_eq]

theorem toNat_shiftRight_eq_div (x : Vec) (m : Nat) : (x >>> m).toNat = x.toNat / 2 ^ m := by
  rw [BitVec.toNat_ushiftRight, Nat.shiftRight_eq_div_pow]

/-- A selected byte goes to the place that counts the mask bits below it (R189). -/
theorem elem_moveExtract_countOnes (a b : Vec) {i : Nat} (hi : i < 16) (hb : b.getLsbD i = true) :
    elem 8 (moveExtract a b) (countOnes b i) = elem 8 a i := by
  have hplace : countOnes b i < 16 := (countOnes_le b i).trans_lt hi
  rw [moveExtract, elem_lanes _ _ _ hplace (by decide), List.getD_eq_getElem?_getD, selectedBytes, List.getElem?_map,
    getElem?_ones_countOnes b hi hb]
  rfl

/-- Above the selected bytes there are zeros (R189). -/
theorem elem_moveExtract_high (a b : Vec) {i : Nat} (hi : i < 16) (hc : countOnes b 16 ≤ i) :
    elem 8 (moveExtract a b) i = 0#8 := by
  have hlen : (selectedBytes a b).length ≤ i := by
    rwa [selectedBytes, List.length_map, ← countOnes_eq_length_filter]
  rw [moveExtract, elem_lanes _ _ _ hi (by decide), List.getD_eq_default _ _ hlen]

theorem elem_moveExpand (a b : Vec) {i : Nat} (hi : i < 16) :
    elem 8 (moveExpand a b) i = if b.getLsbD i then elem 8 a (countOnes b i) else 0#8 :=
  elem_lanes _ _ _ hi (by decide)

/-- MOVBP.B takes each selected byte back from the place where MOVBT.B has put it (R190). -/
theorem elem_moveExpand_moveExtract (a b : Vec) {i : Nat} (hi : i < 16) :
    elem 8 (moveExpand (moveExtract a b) b) i = if b.getLsbD i then elem 8 a i else 0#8 := by
  rw [elem_moveExpand _ _ hi]
  split
  next hb => exact elem_moveExtract_countOnes a b hi hb
  next => rfl

/-! ## The instructions -/

variable {s t : State}

/-- A completion writes none of the control bits, so after it MXA instructions execute as before it (R402). -/
theorem Wrote.executes_eq {e : Effect} (h : Wrote e s t) : executes t = executes s := by
  obtain ⟨h3, h5, hst, -, -, -⟩ := h.cp0
  simp only [executes, cu2Allows, riUnit, msap, msaEn, statusCU1, statusFR, statusCU2, h3, h5, hst, h.launch.params]

/-! The settling theorems have a namespace of their own, beside the value functions `bitExtract`, `bitExpand` and
`bitMaskUpdate`. -/

namespace Bitwise

/-- Settles O12: the law of `bitExtract` at the three widths. -/
theorem bitExtract : Obligations.BitExtract := by
  intro s wd ws h
  exact ⟨completesWriting_of_body h rfl (getLsbD_bitExtract 8 _), completesWriting_of_body h rfl (getLsbD_bitExtract 16 _),
    completesWriting_of_body h rfl (getLsbD_bitExtract 32 _)⟩

/-- Settles O13: the law of `bitExpand` at the five widths, each of which divides 128. -/
theorem bitExpand : Obligations.BitExpand := by
  intro s wd ws h
  exact ⟨completesWriting_of_body h rfl fun _ => getLsbD_bitExpand _ (by decide),
    completesWriting_of_body h rfl fun _ => getLsbD_bitExpand _ (by decide),
    completesWriting_of_body h rfl fun _ => getLsbD_bitExpand _ (by decide),
    completesWriting_of_body h rfl fun _ => getLsbD_bitExpand _ (by decide),
    completesWriting_of_body h rfl fun _ => getLsbD_bitExpand _ (by decide)⟩

/-- Settles O14: the law of `bitMaskUpdate`, where the number of set bits below is a count of ones. -/
theorem bitMaskUpdate : Obligations.BitMaskUpdate := by
  intro s wd ws wt h
  refine completesWriting_of_body h rfl fun k hk => ?_
  rw [getLsbD_bitMaskUpdate _ _ _ _ hk, countOnes_eq_length_filter]

/-- Settles O17: the place of a byte and the number of mask bits are both counts of ones. -/
theorem moveByteExtract : Obligations.MoveByteExtract := by
  intro s wd ws wt h
  refine completesWriting_of_body h rfl ⟨fun i hi hb => ?_, fun i hi hc => ?_⟩
  · rw [← countOnes_eq_length_filter]
    exact elem_moveExtract_countOnes _ _ hi hb
  · rw [← countOnes_eq_length_filter] at hc
    exact elem_moveExtract_high _ _ hi hc

/-- Settles O18: the byte dealt out is numbered by a count of ones. -/
theorem moveByteExpand : Obligations.MoveByteExpand := by
  intro s wd ws wt h
  refine completesWriting_of_body h rfl fun i hi => ?_
  rw [← countOnes_eq_length_filter]
  exact elem_moveExpand _ _ hi

/-- Settles O19: MOVBT.B leaves the mask, another register, and the state still executes MXA instructions, so MOVBP.B
expands under the same mask what MOVBT.B has packed. -/
theorem expandInvertsExtract : Obligations.ExpandInvertsExtract := by
  intro s w1 w2 ws wt h hne
  obtain ⟨t, ht, hw, hpacked⟩ : CompletesWriting (.movbtB w1 ws wt) w1 s (· = moveExtract (readWr s ws) (readWr s wt)) :=
    completesWriting_of_body h rfl rfl
  have hmask : readWr t wt = readWr s wt := hw.wrs wt (by simpa [Effect.wr] using hne)
  refine ⟨t, ht, completesWriting_of_body (hw.executes_eq.trans h) rfl fun i hi => ?_⟩
  rw [hpacked, hmask]
  exact elem_moveExpand_moveExtract _ _ hi

/-- Settles O10: bit by bit, the control bit opens one of the two conjunctions and closes the other. -/
theorem bitMoveByRegister : Obligations.BitMoveByRegister := by
  intro s wd ws wt wr h
  refine completesWriting_of_body h rfl fun k hk => ?_
  rw [BitVec.getLsbD_or, BitVec.getLsbD_and, BitVec.getLsbD_and, BitVec.getLsbD_not]
  cases (readWr s wr).getLsbD k <;> simp [hk]

/-- Settles O11: the count is at most 128, so it fits in byte 0. -/
theorem populationCount : Obligations.PopulationCount := by
  intro s wd ws h
  refine completesWriting_of_body h rfl ?_
  have hle := countOnes_le (readWr s ws) 128
  rw [← countOnes_eq_length_filter, BitVec.toNat_setWidth, BitVec.toNat_ofNat]
  omega

/-- Settles O15: `wt[6:0]` is the number modulo 128. -/
theorem vectorShift : Obligations.VectorShift := by
  intro s wd ws wt h
  rw [← shiftAmount_eq]
  exact ⟨completesWriting_of_body h rfl (toNat_shiftLeft_eq_mul _ _),
    completesWriting_of_body h rfl (toNat_shiftRight_eq_div _ _)⟩

/-- Settles O16: an amount below 32 is a valid operand, so the prologue lets the shift run (D24). -/
theorem vectorShiftImmediate : Obligations.VectorShiftImmediate := by
  intro s wd ws m h hm
  have hvalid (body : Result) : mxa (decide (m < 32)) s body = mxa true s body := by rw [decide_eq_true hm]
  exact ⟨completesWriting_of_body h (hvalid _) (toNat_shiftLeft_eq_mul _ m),
    completesWriting_of_body h (hvalid _) (toNat_shiftRight_eq_div _ m)⟩

end Bitwise
end Sys2Proof.Machine
end

section
/-! SUPPORT. The conversions from XHS: control values and the half that an instruction reads, one number by its kind, and
the instructions as a whole (R210 to R220). -/

namespace Sys2Proof.Machine

/-! ## Control values -/

theorem ctrlEbits_eq (c : BitVec 16) : ctrlEbits c = c.toNat % 16 := by simp [ctrlEbits]

theorem ctrlBias_eq (c : BitVec 16) : ctrlBias c = c.toNat / 16 % 128 := by
  simp [ctrlBias, Nat.shiftRight_eq_div_pow]

/-- `valid(ctrl)` on the fields as numbers (R211). -/
theorem ctrlValid_iff {c : BitVec 16} :
    ctrlValid c = true ↔
      2 ≤ c.toNat % 16 ∧ c.toNat % 16 ≤ 7 ∧ c.toNat / 16 % 128 ≤ 2 ^ (c.toNat % 16) - 1
        ∨ c.toNat % 16 = 8 ∧ c.toNat / 16 % 128 = 0x7F := by
  simp only [ctrlValid, ctrlEbits_eq, ctrlBias_eq, Bool.or_eq_true, decide_eq_true_eq]

theorem ctrlsValid_iff {h : Half} {t : Vec} :
    ctrlsValid h t = true ↔ ∀ k < 4, ctrlValid (halfElem h 16 t k) = true := by
  simp only [ctrlsValid, List.all_eq_true, List.mem_range]

/-! ## One number -/

/-- The single-precision word with the sign `n`, the exponent `e` and the `m`-bit fraction `f` (R216). -/
def normalWord (n : Bool) (e : Int) (f m : Nat) : Word :=
  fpPack n (BitVec.ofInt 8 (e + 127)) (BitVec.ofNat 23 (f * 2 ^ (23 - m)))

section
variable {e : Int} {f m : Nat}

theorem fpExp_normalWord (n : Bool) (hlo : -126 ≤ e) (hhi : e ≤ 127) : (fpExp (normalWord n e f m) : Int) = e + 127 := by
  rw [normalWord, fpExp_fpPack, BitVec.toNat_ofInt]
  omega

theorem fpFrac_normalWord (n : Bool) (hf : f < 2 ^ m) (hm : m ≤ 23) :
    fpFrac (normalWord n e f m) = f * 2 ^ (23 - m) := by
  have hlt : f * 2 ^ (23 - m) < 2 ^ 23 :=
    calc f * 2 ^ (23 - m)
      _ < 2 ^ m * 2 ^ (23 - m) := Nat.mul_lt_mul_of_pos_right hf (Nat.two_pow_pos _)
      _ = 2 ^ 23 := by rw [← Nat.pow_add, Nat.add_sub_cancel' hm]
  rw [normalWord, fpFrac_fpPack, BitVec.toNat_ofNat, Nat.mod_eq_of_lt hlt]

theorem isNormal_normalWord (n : Bool) (hlo : -126 ≤ e) (hhi : e ≤ 127) : isNormal (normalWord n e f m) = true := by
  have hexp := fpExp_normalWord (f := f) (m := m) n hlo hhi
  exact isNormal_iff.mpr ⟨by omega, by omega⟩

/-- The number of the word is `(-1)^n * 2^e * (1 + f / 2^m)`. -/
theorem singleValue_normalWord (n : Bool) (hlo : -126 ≤ e) (hhi : e ≤ 127) (hf : f < 2 ^ m) (hm : m ≤ 23) :
    singleValue (normalWord n e f m) = (if n then -1 else 1) * 2 ^ e * (1 + (f : ℚ) / 2 ^ m) := by
  have hexp := fpExp_normalWord (f := f) (m := m) n hlo hhi
  have hsign : fpSign (normalWord n e f m) = n := fpSign_fpPack _ _ _
  have hshift : (2 : ℚ) ^ 23 = 2 ^ (23 - m) * 2 ^ m := by rw [← pow_add, Nat.sub_add_cancel hm]
  have hfrac : ((2 ^ 23 + f * 2 ^ (23 - m) : Nat) : ℚ) = 2 ^ 23 * (1 + f / 2 ^ m) := by
    rw [Nat.cast_add, Nat.cast_mul, Nat.cast_pow, Nat.cast_pow, Nat.cast_ofNat, hshift]
    field_simp
  have hpow : (2 : ℚ) ^ 23 * 2 ^ (e - 23) = 2 ^ e := by
    rw [← zpow_natCast, ← zpow_add₀ two_ne_zero, Nat.cast_ofNat, add_sub_cancel]
  rw [singleValue, hsign, if_neg (by omega : fpExp (normalWord n e f m) ≠ 0), fpFrac_normalWord n hf hm, hexp, hfrac,
    show e + 127 - 150 = e - 23 by omega, ← hpow]
  ring

end

theorem xhsZero_eq (z : XhsZeroSign) (n : Bool) :
    xhsZero z n = if z = .copy ∧ n = true then 0x80000000#32 else 0#32 := by
  cases z <;> cases n <;> rfl

section
variable {a : BitVec 16} {ebits bias : Nat}

theorem xhsFrac_lt (a : BitVec 16) (ebits : Nat) : xhsFrac a ebits < 2 ^ (15 - ebits) :=
  Nat.mod_lt _ (Nat.two_pow_pos _)

/-- An XHS zero becomes a zero (R217). -/
theorem upConvertXhs_zero (z : XhsZeroSign) (he : xhsExp a ebits = 0) (hf : xhsFrac a ebits = 0) :
    upConvertXhs z a ebits bias = if z = .copy ∧ a.getLsbD 15 = true then 0x80000000#32 else 0#32 := by
  rw [upConvertXhs, if_pos ⟨he, hf⟩, xhsZero_eq, xhsSign]

/-- An XHS number in the normal range keeps its sign, its exponent and its fraction (R216). -/
theorem upConvertXhs_inRange (z : XhsZeroSign) (h0 : xhsExp a ebits ≠ 0 ∨ xhsFrac a ebits ≠ 0)
    (hlo : -126 ≤ (xhsExp a ebits : Int) - bias) (hhi : (xhsExp a ebits : Int) - bias ≤ 127) :
    upConvertXhs z a ebits bias = normalWord (xhsSign a) (xhsExp a ebits - bias) (xhsFrac a ebits) (15 - ebits) := by
  rw [upConvertXhs, if_neg (not_and_or.mpr h0), if_pos ⟨hlo, hhi⟩, normalWord]

/-- The number of an XHS bit pattern that is not a zero (R213). -/
theorem xhsValue_of_nonzero (h0 : xhsExp a ebits ≠ 0 ∨ xhsFrac a ebits ≠ 0) :
    xhsValue a ebits bias = (if xhsSign a then -1 else 1) * 2 ^ ((xhsExp a ebits : ℤ) - (bias : ℤ))
      * (1 + (xhsFrac a ebits : ℚ) / 2 ^ (15 - ebits)) :=
  if_neg (not_and_or.mpr h0)

/-- An XHS number in the normal range becomes the normal number of the same value (R213, R216). -/
theorem upConvertXhs_value (z : XhsZeroSign) (h0 : xhsExp a ebits ≠ 0 ∨ xhsFrac a ebits ≠ 0)
    (hlo : -126 ≤ (xhsExp a ebits : Int) - bias) (hhi : (xhsExp a ebits : Int) - bias ≤ 127) :
    isNormal (upConvertXhs z a ebits bias) = true ∧ singleValue (upConvertXhs z a ebits bias) = xhsValue a ebits bias := by
  rw [upConvertXhs_inRange z h0 hlo hhi, xhsValue_of_nonzero h0]
  exact ⟨isNormal_normalWord _ hlo hhi, singleValue_normalWord _ hlo hhi (xhsFrac_lt a ebits) (by omega)⟩

end

/-! ## The instructions -/

variable {s : State} {wd ws wt : VReg}

/-- FEXUPLC.W and FEXUPRC.W are one meaning on the two halves (R219, R220). -/
theorem exec_upConvert {i : Instr} {n : Nat}
    (hi : i = .fexuplcW wd ws wt ∧ n = 64 ∨ i = .fexuprcW wd ws wt ∧ n = 0) (s : State) :
    ∃ h : Half, n = halfOffset h ∧ exec i s = mxa true s (complete (upConvert h s wd ws wt)) := by
  obtain ⟨rfl, rfl⟩ | ⟨rfl, rfl⟩ := hi
  · exact ⟨.left, rfl, rfl⟩
  · exact ⟨.right, rfl, rfl⟩

theorem upConvert_of_valid {h : Half} (hv : ctrlsValid h (readWr s wt) = true) :
    upConvert h s wd ws wt =
      writeWr s wd (upConvertVec s.params.xhsZeroSign h (readWr s ws) (readWr s wt)) :=
  if_pos hv

theorem upConvert_of_invalid {h : Half} (hv : ctrlsValid h (readWr s wt) ≠ true) :
    upConvert h s wd ws wt = { writeWr s wd (Config.freeVector s.draws) with draws := s.draws + 1 } :=
  if_neg hv

/-- Word `k` of the result is the conversion of number `k` of the half under control value `k` (R219, R220). -/
theorem elem_upConvertVec (z : XhsZeroSign) (h : Half) (x y : Vec) {k : Nat} (hk : k < 4) :
    elem 32 (upConvertVec z h x y) k =
      upConvertXhs z (halfElem h 16 x k) ((halfElem h 16 y k).toNat % 16) ((halfElem h 16 y k).toNat / 16 % 128) := by
  rw [upConvertVec, elem_lanes _ _ _ hk (by decide), ctrlEbits_eq, ctrlBias_eq]

/-- Settles O27: valid control values open the four conversions, and each is `upConvertXhs_zero` or
`upConvertXhs_value`. -/
theorem upConvertValid : Obligations.UpConvertValid := by
  intro s wd ws wt n i hs hi hctrl
  obtain ⟨h, rfl, hexec⟩ := exec_upConvert hi s
  have hvalid : ctrlsValid h (readWr s wt) = true :=
    ctrlsValid_iff.mpr fun k hk => ctrlValid_iff.mpr (hctrl k hk _ rfl)
  rw [upConvert_of_valid hvalid] at hexec
  refine completesWriting_of_body hs hexec ?_
  rintro k hk a c ebits bias rfl rfl rfl rfl
  rw [show BitVec.extractLsb' (32 * k) 32 _ = _ from elem_upConvertVec _ h _ _ hk]
  exact ⟨upConvertXhs_zero _, upConvertXhs_value _⟩

/-- Settles O28: one invalid control value among the four makes the whole result the free value, one draw. -/
theorem upConvertInvalid : Obligations.UpConvertInvalid := by
  rintro s wd ws wt n i hs hi ⟨k, hk, _, rfl, hnormal, hwide⟩
  obtain ⟨h, rfl, hexec⟩ := exec_upConvert hi s
  have hinvalid : ctrlsValid h (readWr s wt) ≠ true := fun hv =>
    (ctrlValid_iff.mp (ctrlsValid_iff.mp hv k hk)).elim hnormal hwide
  rw [upConvert_of_invalid hinvalid, mxa_of_executes hs] at hexec
  exact ⟨_, hexec, drawnWriteWr_wrote s wd _ _, readWr_writeWr_self s wd _, rfl⟩

end Sys2Proof.Machine
end

section
/-! SUPPORT. Element permute: the bytes of two concatenated registers, and one law for each of the two value functions
(R231, R232). -/

namespace Sys2Proof.Machine

/-! ## The bytes of a concatenation -/

/-- Byte `k` of `x || y` comes from `y` below 16 and from `x` from 16 on (R14). -/
theorem elem_append (x y : Vec) (k : Nat) :
    elem 8 (x ++ y) k = if k < 16 then elem 8 y k else elem 8 x (k - 16) := by
  split
  next hlow => exact BitVec.extractLsb'_append_eq_of_add_le (by omega)
  next hhigh => rw [elem, BitVec.extractLsb'_append_eq_of_le (by omega), elem, Nat.mul_sub]

/-! ## The control bytes -/

/-- Bit 6 or bit 7 of a control byte is 1 exactly from the value 64 on. -/
theorem controlHigh_ne_zero_iff (c : Byte) : c.extractLsb' 6 2 ≠ 0b00#2 ↔ 64 ≤ c.toNat := by
  rw [ne_eq, BitVec.toNat_eq, BitVec.extractLsb'_toNat, Nat.shiftRight_eq_div_pow, BitVec.toNat_ofNat]
  omega

/-- The index in the low six bits, modulo 32, is the control byte's value modulo 32. -/
theorem controlIndex_eq (c : Byte) : (c.extractLsb' 0 6).toNat % 32 = c.toNat % 32 := by
  rw [BitVec.extractLsb'_toNat, Nat.shiftRight_zero]
  omega

/-! ## The value functions -/

theorem elem_shuffleBytes (x y c : Vec) {i : Nat} (hi : i < 16) :
    elem 8 (shuffleBytes x y c) i =
      if 64 ≤ (elem 8 c i).toNat then 0#8
      else if (elem 8 c i).toNat % 32 < 16 then elem 8 y ((elem 8 c i).toNat % 32)
      else elem 8 x ((elem 8 c i).toNat % 32 - 16) := by
  rw [shuffleBytes, elem_lanes _ _ _ hi (by decide)]
  simp only [controlHigh_ne_zero_iff, controlIndex_eq, elem_append]

theorem elem_slideBytes (x y : Vec) (n : Nat) {i : Nat} (hi : i < 16) :
    elem 8 (slideBytes x y n) i = if i + n < 16 then elem 8 x (i + n) else elem 8 y (i + n - 16) := by
  rw [slideBytes, elem_lanes _ _ _ hi (by decide), elem_append]

/-! ## The instructions -/

/-- Settles O20: the law of `shuffleBytes`. -/
theorem shuffle : Obligations.Shuffle := by
  intro s wd ws wt wr h
  exact completesWriting_of_body h rfl fun _ => elem_shuffleBytes _ _ _

/-- Settles O21: the law of `slideBytes`; an amount below 16 is a valid operand, so the prologue lets the slide run. -/
theorem slide : Obligations.Slide := by
  intro s wd ws wt n h hn
  have hvalid (body : Result) : mxa (decide (n < 16)) s body = mxa true s body := by rw [decide_eq_true hn]
  exact completesWriting_of_body h (hvalid _) fun _ => elem_slideBytes _ _ n

end Sys2Proof.Machine
end

section
/-! SUPPORT. Loads and stores: an access that goes through and one that misses its alignment, each said once for a body of
its form; the effective addresses as numbers; and the instructions. -/

namespace Sys2Proof.Machine

variable {s : State}

/-! ## Elements and memory -/

/-- Every element of a register after one of them has been replaced (R244). -/
theorem elem_setElem {w : Nat} (x : Vec) (n : Nat) (v : BitVec w) {i : Nat} (hi : i < 128 / w) :
    elem w (setElem w x n v) i = if i = n then v else elem w x i := by
  have hw : w * (128 / w) ≤ 128 := Nat.mul_div_le 128 w
  split
  next h =>
    subst h
    exact elem_setElem_self x i v hi hw
  next h => exact elem_setElem_ne x n i v h hi hw

/-- What a store has written reads back (R73, R74). -/
theorem memRead_memWrite_self (m : Memory) (e : Endian) {p : Addr} {n : Nat} (x : BitVec (8 * n)) (hn : n = 4 ∨ n = 8)
    (hp : aligned p n = true) : memRead (memWrite m e p n x) e p n = some x := by
  have hmod : p.toNat % n = 0 := by simpa [aligned] using hp
  simpa using memoryReadAfterWrite m e p p n x hn hmod hmod

/-! ## Accesses that go through -/

variable {i : Instr} {a : Addr} {n : Nat}

/-- A valid instruction in a state that executes MXA instructions is its body (R356, R402). -/
theorem exec_eq_body {body : Result} (hs : executes s = true) (hi : i.wellFormed = true)
    (he : exec i s = mxa i.wellFormed s body) : exec i s = body := by
  rw [he, hi, mxa_of_executes hs]

section
variable {wd : VReg} {base : GReg} {f : BitVec (8 * n) → Vec} {x : BitVec (8 * n)} {P : Vec → Prop}
  (hs : executes s = true) (hi : i.wellFormed = true)
include hs hi

/-- A load without base update whose access goes through completes with what it makes of the value read (R240). -/
theorem completesWriting_of_load (hl : loads s a n x)
    (he : exec i s = mxa i.wellFormed s (load s a n fun x => writeWr s wd (f x))) (hp : P (f x)) :
    CompletesWriting i wd s P := by
  refine completesWriting_of_body hs ?_ hp
  rw [exec_eq_body hs hi he, load_of_loads hl, mxa_of_executes hs]

/-- A load with base update whose access goes through: as without, and the base receives the address (R240, R245). -/
theorem completesUpdating_of_load (ha : wrapAddr s a = a) (hl : loads s a n x)
    (he : exec i s = mxa i.wellFormed s (load s a n fun x => writeGpr (writeWr s wd (f x)) base a)) (hp : P (f x)) :
    CompletesUpdating i wd base a s P := by
  refine ⟨_, (exec_eq_body hs hi he).trans (load_of_loads hl _), writeWr_writeGpr_wroteOnly s wd (f x) base a,
    baseUpdated_writeGpr (writeWr s wd (f x)) base a _ ha, ?_⟩
  have hwd : readWr (writeGpr (writeWr s wd (f x)) base a) wd = f x := by simp
  exact hwd.symm ▸ hp

/-- A store without base update whose access goes through writes its bytes and nothing else (R74, R240). -/
theorem completes_of_store (hn : n = 4 ∨ n = 8) (hst : storesTo s a n)
    (he : exec i s = mxa i.wellFormed s (store s a n x id)) :
    ∃ t, exec i s = .next t ∧ WroteOnly .memory s t ∧ SameMemoryOutside a n s t
      ∧ memRead t.mem s.params.endian a n = some x := by
  have hal : aligned a n = true := hst.1
  exact ⟨_, (exec_eq_body hs hi he).trans (store_of_storesTo hst _), mem_wroteOnly s _, memGet_memWrite_ne s.mem _ a n x,
    memRead_memWrite_self s.mem _ x hn hal⟩

/-- A store with base update whose access goes through: as without, and the base receives the address (R240, R245). -/
theorem completes_of_storeUpdate (ha : wrapAddr s a = a) (hn : n = 4 ∨ n = 8) (hst : storesTo s a n)
    (he : exec i s = mxa i.wellFormed s (store s a n x fun t => writeGpr t base a)) :
    ∃ t, exec i s = .next t ∧ WroteOnly (.memoryAndBase base) s t ∧ SameMemoryOutside a n s t ∧ BaseUpdated base a t
      ∧ memRead t.mem s.params.endian a n = some x := by
  have hal : aligned a n = true := hst.1
  exact ⟨_, (exec_eq_body hs hi he).trans (store_of_storesTo hst _), mem_writeGpr_wroteOnly s _ base a,
    memGet_memWrite_ne s.mem _ a n x, baseUpdated_writeGpr { s with mem := _ } base a _ ha,
    memRead_memWrite_self s.mem _ x hn hal⟩

end

/-! ## Accesses that miss their alignment -/

/-- The Address Error of an access: AdEL of a load, AdES of a store (R242). -/
def addressError : Access → Addr → Exc
  | .load => .addressErrorLoad
  | .store => .addressErrorStore

theorem load_of_not_aligned {write : BitVec (8 * n) → State} (h : aligned a n = false) :
    load s a n write = raiseExc s (addressError .load a) := by
  simp [load, h, addressError]

theorem store_of_not_aligned {x : BitVec (8 * n)} {update : State → State} (h : aligned a n = false) :
    store s a n x update = raiseExc s (addressError .store a) := by
  simp [store, h, addressError]

/-- A body that accesses memory begins with the check of the alignment (R240). -/
theorem BodyForm.eq_raiseExc {e : Effect} {acc : Access} {body : Result} (hb : BodyForm s e (some ⟨acc, a, n⟩) body)
    (h : aligned a n = false) : body = raiseExc s (addressError acc a) := by
  cases hb with
  | load | loadUpdate => exact load_of_not_aligned h
  | store | storeUpdate => exact store_of_not_aligned h

/-- Every load and store takes its Address Error at an address that is not a multiple of its size, and does nothing else
(R242, R354, R355). -/
theorem exec_addressError {acc : Access} (hs : executes s = true) (hexl : statusEXL s = false) (hi : i.wellFormed = true)
    (ha : accessOf s i = some ⟨acc, a, n⟩) (hmod : a.toNat % n ≠ 0) :
    ∃ t, exec i s = .next t ∧ TookException (excCode (addressError acc a)) (excVAddr (addressError acc a)) s t := by
  obtain ⟨body, he, hb⟩ := exec_bodyForm i s
  have hal : aligned a n = false := by simpa [aligned] using hmod
  have hraise : body = raiseExc s (addressError acc a) := (ha ▸ hb).eq_raiseExc hal
  rw [exec_eq_body hs hi he, hraise, raiseExc_of_exl_clear _ hexl]
  exact ⟨_, rfl, enterException_took s _⟩

/-! ## Effective addresses as numbers -/

/-- A sum modulo `2^GPRLEN` whose second term is given as a number (R70). -/
theorem toNat_wrapAddr_add_ofNat (s : State) (x : Addr) (k : Nat) :
    (wrapAddr s (x + BitVec.ofNat 64 k)).toNat = (x.toNat + k) % 2 ^ gprBits s.params.gprLen := by
  have hdvd : 2 ^ gprBits s.params.gprLen ∣ 2 ^ 64 := Nat.pow_dvd_pow 2 (gprBits_le _)
  rw [toNat_wrapAddr, BitVec.toNat_add, BitVec.toNat_ofNat, Nat.add_mod_mod, Nat.mod_mod_of_dvd _ hdvd]

theorem toNat_wrapAddr_add (s : State) (x y : Addr) :
    (wrapAddr s (x + y)).toNat = (x.toNat + y.toNat) % 2 ^ gprBits s.params.gprLen := by
  simpa using toNat_wrapAddr_add_ofNat s x y.toNat

/-- A field of a register as a number (R9). -/
theorem toNat_extractLsb'_eq_div (x : Addr) (lo w : Nat) : (x.extractLsb' lo w).toNat = x.toNat / 2 ^ lo % 2 ^ w := by
  rw [BitVec.extractLsb'_toNat, Nat.shiftRight_eq_div_pow]

/-- A field's increment by arithmetic: within its own width, or as an integer (R247). -/
theorem incField_eq (wraps : Bool) {width field : Nat} (h : field < 2 ^ width) :
    incField wraps width field = if wraps then (field + 1) % 2 ^ width else field + 1 := by
  unfold incField
  split
  next hlt => rw [Nat.mod_eq_of_lt hlt, ite_self]
  next hge =>
    have hall : field + 1 = 2 ^ width := by omega
    rw [hall, Nat.mod_self]

/-- An incremented field of a register, by arithmetic on the register's number (R246, R247). -/
theorem incField_extractLsb' (wraps : Bool) (x : Addr) (lo w : Nat) :
    incField wraps w (x.extractLsb' lo w).toNat =
      if wraps then (x.toNat / 2 ^ lo % 2 ^ w + 1) % 2 ^ w else x.toNat / 2 ^ lo % 2 ^ w + 1 := by
  rw [incField_eq wraps (BitVec.isLt _), toNat_extractLsb'_eq_div]

/-! ## The instructions -/

/-- Settles O35: each address is a sum modulo `2^GPRLEN`, and each offset a field of the index register as a number. -/
theorem effectiveAddresses : Obligations.EffectiveAddresses := by
  intro s base index n
  refine ⟨toNat_wrapAddr_add s _ _, ?_, ?_, ?_, toNat_wrapAddr_add_ofNat s _ 4, toNat_wrapAddr_add_ofNat s _ 8,
    toNat_wrapAddr_add_ofNat s _ 4⟩
  · rintro - _ rfl
    rw [addrSparse, offsetSparse, toNat_wrapAddr_add_ofNat, incField_extractLsb']
  · rintro - _ rfl
    rw [addrSparseByte, offsetSparseByte, toNat_wrapAddr_add_ofNat, incField_extractLsb']
  · rintro - _ rfl
    rw [addrSparseNibble, offsetSparseNibble, toNat_wrapAddr_add_ofNat, toNat_extractLsb'_eq_div]

/-- Settles O29: the load goes through, and the insertion is the law of `setElem`. -/
theorem loadInsert : Obligations.LoadInsert := by
  intro s wd n index base hs
  exact ⟨fun x hn hl => completesWriting_of_load hs (decide_eq_true hn) hl rfl fun _ => elem_setElem _ n x,
    fun x hn hl => completesWriting_of_load hs (decide_eq_true hn) hl rfl fun _ => elem_setElem _ n x⟩

/-- Settles O30: as LDINS, and the address is a `GPRLEN`-bit string, so the base receives it whole. -/
theorem loadInsertUpdate : Obligations.LoadInsertUpdate := by
  intro s wd n index base hs
  have ha := wrapAddr_addrIndexed s base index
  exact ⟨fun x hn hl => completesUpdating_of_load hs (decide_eq_true hn) ha hl rfl fun _ => elem_setElem _ n x,
    fun x hn hl => completesUpdating_of_load hs (decide_eq_true hn) ha hl rfl fun _ => elem_setElem _ n x⟩

/-- Settles O31: LDINS.W and LDINSU.W at the sparse addresses. -/
theorem loadSparse : Obligations.LoadSparse := by
  intro s wd n index base x hs hn
  have ha := wrapAddr_addrSparseByte s base index n
  exact ⟨fun hl => completesWriting_of_load hs (decide_eq_true hn) hl rfl fun _ => elem_setElem _ n x,
    fun hl => completesUpdating_of_load hs (decide_eq_true hn) ha hl rfl fun _ => elem_setElem _ n x⟩

/-- Settles O32: the insertion is at `n mod 4`, the address that of nibble `n`. -/
theorem loadSparseNibble : Obligations.LoadSparseNibble := by
  intro s wd n index base x hs hn hl
  have ha := wrapAddr_addrSparseNibble s base index n
  exact completesUpdating_of_load hs (decide_eq_true hn) ha hl rfl fun _ => elem_setElem _ (n % 4) x

/-- Settles O33: the store goes through at both sizes. -/
theorem storeExtract : Obligations.StoreExtract := by
  intro s wd n index base hs
  exact ⟨fun hn hst => completes_of_store hs (decide_eq_true hn) (.inl rfl) hst rfl,
    fun hn hst => completes_of_store hs (decide_eq_true hn) (.inr rfl) hst rfl⟩

/-- Settles O34: as STEXT, and the address is a `GPRLEN`-bit string, so the base receives it whole. -/
theorem storeExtractUpdate : Obligations.StoreExtractUpdate := by
  intro s wd n base hs
  have ha := wrapAddr_addrNext s base
  exact ⟨fun hn hst => completes_of_storeUpdate hs (decide_eq_true hn) (ha 4) (.inl rfl) hst rfl,
    fun hn hst => completes_of_storeUpdate hs (decide_eq_true hn) (ha 8) (.inr rfl) hst rfl⟩

/-- Settles O36: each of the seven is an instruction whose access is a load at the address named. -/
theorem addressErrorLoad : Obligations.AddressErrorLoad := by
  intro s wd n index base hs hexl
  refine ⟨fun v i hv hcases => ?_, fun v i hv hn ha hcases => ?_⟩
  · obtain ⟨hwf, hacc⟩ : i.wellFormed = true ∧ accessOf s i = some ⟨.load, v, 4⟩ := by
      obtain ⟨hn, rfl, rfl | rfl⟩ | ⟨hn, rfl, rfl⟩ | ⟨hn, rfl, rfl⟩ | ⟨hn, rfl, rfl⟩ := hcases <;>
        exact ⟨decide_eq_true hn, rfl⟩
    exact exec_addressError hs hexl hwf hacc hv
  · obtain ⟨hwf, hacc⟩ : i.wellFormed = true ∧ accessOf s i = some ⟨.load, v, 8⟩ := by
      subst ha
      obtain rfl | rfl := hcases <;> exact ⟨decide_eq_true hn, rfl⟩
    exact exec_addressError hs hexl hwf hacc hv

/-- Settles O37: each of the four is an instruction whose access is a store at the address named. -/
theorem addressErrorStore : Obligations.AddressErrorStore := by
  intro s wd n index base hs hexl
  refine ⟨fun v i hv hn hcases => ?_, fun v i hv hn hcases => ?_⟩
  · obtain ⟨hwf, hacc⟩ : i.wellFormed = true ∧ accessOf s i = some ⟨.store, v, 4⟩ := by
      obtain ⟨rfl, rfl⟩ | ⟨rfl, rfl⟩ := hcases <;> exact ⟨decide_eq_true hn, rfl⟩
    exact exec_addressError hs hexl hwf hacc hv
  · obtain ⟨hwf, hacc⟩ : i.wellFormed = true ∧ accessOf s i = some ⟨.store, v, 8⟩ := by
      obtain ⟨rfl, rfl⟩ | ⟨rfl, rfl⟩ := hcases <;> exact ⟨decide_eq_true hn, rfl⟩
    exact exec_addressError hs hexl hwf hacc hv

end Sys2Proof.Machine
end

section
/-! SUPPORT. MOVE.W: a word of one register into a word of another (R280). -/

namespace Sys2Proof.Machine

/-- Settles O22: two word indices below 4 are valid operands, so the prologue lets the body run, and its insertion is the
law of `setElem`. -/
theorem moveWord : Obligations.MoveWord := by
  intro s wd ws m n h hm hn
  have hvalid (body : Result) : mxa (decide (m < 4) && decide (n < 4)) s body = mxa true s body := by
    rw [decide_eq_true hm, decide_eq_true hn, Bool.and_self]
  exact completesWriting_of_body h (hvalid _) fun _ => elem_setElem (readWr s wd) m (elem 32 (readWr s ws) n)

end Sys2Proof.Machine
end

section
/-! SUPPORT. Integer arithmetic: the extended operands and their exact or wrapped results as numbers, one law for each
widening operation and each kind of extension, the bit tests of the saturations as bounds, and the instructions (R290 to
R314). -/

namespace Sys2Proof.Machine

variable {w i : Nat}

/-! ## Exact results: numbers that fit in the destination width (R290) -/

theorem bmod_two_pow_eq_self {v : Int} (hw : 0 < w) (hlo : -2 ^ (2 * w - 1) ≤ v) (hhi : v < 2 ^ (2 * w - 1)) :
    v.bmod (2 ^ (2 * w)) = v := by
  have hpow : (2 : Int) ^ (2 * w) = 2 ^ (2 * w - 1) * 2 := by rw [← pow_succ, Nat.sub_add_cancel (by omega)]
  apply Int.bmod_eq_of_le_mul_two <;> push_cast <;> omega

/-- Twice the largest magnitude of a source element is at most the largest one of a destination element. -/
theorem two_pow_pred_add_self_le (hw : 0 < w) : (2 : Int) ^ (w - 1) + 2 ^ (w - 1) ≤ 2 ^ (2 * w - 1) := by
  rw [← mul_two, ← pow_succ]
  exact pow_le_pow_right₀ (by decide) (by omega)

/-! ## Extended operands (R292) -/

@[simp] theorem toInt_extend_signed (a : BitVec w) : (extend .signed (2 * w) a).toInt = a.toInt :=
  BitVec.toInt_signExtend_of_le (by omega)

@[simp] theorem toNat_extend_unsigned (a : BitVec w) : (extend .unsigned (2 * w) a).toNat = a.toNat :=
  BitVec.toNat_setWidth_of_le (by omega)

variable (a b : BitVec w)

theorem toInt_extend_add_extend (hw : 0 < w) :
    (extend .signed (2 * w) a + extend .signed (2 * w) b).toInt = a.toInt + b.toInt := by
  have hpow := two_pow_pred_add_self_le hw
  rw [BitVec.toInt_add, toInt_extend_signed, toInt_extend_signed]
  exact bmod_two_pow_eq_self hw (by linarith [a.le_toInt, b.le_toInt]) (by linarith [a.toInt_lt, b.toInt_lt])

theorem toInt_extend_sub_extend (hw : 0 < w) :
    (extend .signed (2 * w) a - extend .signed (2 * w) b).toInt = a.toInt - b.toInt := by
  have hpow := two_pow_pred_add_self_le hw
  rw [BitVec.toInt_sub, toInt_extend_signed, toInt_extend_signed]
  exact bmod_two_pow_eq_self hw (by linarith [a.le_toInt, b.toInt_lt]) (by linarith [a.toInt_lt, b.le_toInt])

theorem toInt_extend_mul_extend (hw : 0 < w) :
    (extend .signed (2 * w) a * extend .signed (2 * w) b).toInt = a.toInt * b.toInt := by
  have hlo := BitVec.le_toInt_mul_toInt (x := a) (y := b)
  have hhi := BitVec.toInt_mul_toInt_le (x := a) (y := b)
  have hpow : (2 : Int) ^ (w * 2 - 2) < 2 ^ (2 * w - 1) := pow_lt_pow_right₀ (by decide) (by omega)
  rw [BitVec.toInt_mul, toInt_extend_signed, toInt_extend_signed]
  exact bmod_two_pow_eq_self hw (by omega) (by omega)

theorem toNat_extend_add_extend (hw : 0 < w) :
    (extend .unsigned (2 * w) a + extend .unsigned (2 * w) b).toNat = a.toNat + b.toNat := by
  have hpow : 2 ^ w + 2 ^ w ≤ 2 ^ (2 * w) := by
    rw [← mul_two, ← pow_succ]
    exact Nat.pow_le_pow_right (by decide) (by omega)
  rw [BitVec.toNat_add, toNat_extend_unsigned, toNat_extend_unsigned]
  exact Nat.mod_eq_of_lt (by omega)

theorem toNat_extend_mul_extend :
    (extend .unsigned (2 * w) a * extend .unsigned (2 * w) b).toNat = a.toNat * b.toNat := by
  rw [BitVec.toNat_mul, toNat_extend_unsigned, toNat_extend_unsigned]
  refine Nat.mod_eq_of_lt ?_
  rw [two_mul, pow_add]
  exact Nat.mul_lt_mul'' a.isLt b.isLt

/-- A difference of bit strings wraps (R290). -/
theorem toNat_sub_eq_emod {n : Nat} (x y : BitVec n) : ((x - y).toNat : Int) = ((x.toNat : Int) - y.toNat) % 2 ^ n := by
  have hy : y.toNat ≤ 2 ^ n := y.isLt.le
  rw [BitVec.toNat_sub]
  push_cast [hy]
  rw [show (2 ^ n - (y.toNat : Int) + x.toNat) = x.toNat - y.toNat + 2 ^ n by ring, Int.add_emod_right]

/-! ## The widening templates (R294) -/

variable {e : Extension} {h : Half} {x y : Vec}

/-- Only a positive width has elements. -/
theorem width_pos (hi : i < 64 / w) : 0 < w := Nat.pos_of_ne_zero fun hw => by simp [hw] at hi

theorem widened_length_le (w : Nat) : 2 * w * (64 / w) ≤ 128 := by
  have := Nat.mul_div_le 64 w
  rw [Nat.mul_assoc]
  omega

theorem elem_widen (op : BitVec (2 * w) → BitVec (2 * w) → BitVec (2 * w)) (hi : i < 64 / w) :
    elem (2 * w) (widen e h w op x y) i
      = op (extend e (2 * w) (halfElem h w x i)) (extend e (2 * w) (halfElem h w y i)) :=
  elem_lanes _ _ _ hi (widened_length_le w)

theorem elem_accumulate (hi : i < 64 / w) :
    elem (2 * w) (accumulate e h w x y) i = extend e (2 * w) (halfElem h w x i) + elem (2 * w) y i :=
  elem_lanes _ _ _ hi (widened_length_le w)

variable (w) (h)

theorem toInt_widen_add (hi : i < 64 / w) : (elem (2 * w) (widen .signed h w (· + ·) x y) i).toInt
    = (halfElem h w x i).toInt + (halfElem h w y i).toInt := by
  rw [elem_widen _ hi, toInt_extend_add_extend _ _ (width_pos hi)]

theorem toNat_widen_add (hi : i < 64 / w) : (elem (2 * w) (widen .unsigned h w (· + ·) x y) i).toNat
    = (halfElem h w x i).toNat + (halfElem h w y i).toNat := by
  rw [elem_widen _ hi, toNat_extend_add_extend _ _ (width_pos hi)]

theorem toInt_widen_sub (hi : i < 64 / w) : (elem (2 * w) (widen .signed h w (· - ·) x y) i).toInt
    = (halfElem h w x i).toInt - (halfElem h w y i).toInt := by
  rw [elem_widen _ hi, toInt_extend_sub_extend _ _ (width_pos hi)]

theorem toNat_widen_sub (hi : i < 64 / w) : ((elem (2 * w) (widen .unsigned h w (· - ·) x y) i).toNat : Int)
    = ((halfElem h w x i).toNat - (halfElem h w y i).toNat : Int) % 2 ^ (2 * w) := by
  rw [elem_widen _ hi, toNat_sub_eq_emod, toNat_extend_unsigned, toNat_extend_unsigned]

theorem toInt_widen_mul (hi : i < 64 / w) : (elem (2 * w) (widen .signed h w (· * ·) x y) i).toInt
    = (halfElem h w x i).toInt * (halfElem h w y i).toInt := by
  rw [elem_widen _ hi, toInt_extend_mul_extend _ _ (width_pos hi)]

theorem toNat_widen_mul (hi : i < 64 / w) : (elem (2 * w) (widen .unsigned h w (· * ·) x y) i).toNat
    = (halfElem h w x i).toNat * (halfElem h w y i).toNat := by
  rw [elem_widen _ hi, toNat_extend_mul_extend]

theorem toInt_accumulate (hi : i < 64 / w) : (elem (2 * w) (accumulate .signed h w x y) i).toInt
    = ((halfElem h w x i).toInt + (elem (2 * w) y i).toInt).bmod (2 ^ (2 * w)) := by
  rw [elem_accumulate hi, BitVec.toInt_add, toInt_extend_signed]

theorem toNat_accumulate (hi : i < 64 / w) : (elem (2 * w) (accumulate .unsigned h w x y) i).toNat
    = ((halfElem h w x i).toNat + (elem (2 * w) y i).toNat) % 2 ^ (2 * w) := by
  rw [elem_accumulate hi, BitVec.toNat_add, toNat_extend_unsigned]

/-! ## The bit tests of the saturations as bounds (R311 to R313)

A saturation looks at the top bit, which is the sign, and at the `len` bits between it and the `lo` bits below. -/

variable {n lo len : Nat} {z : BitVec n}

theorem extractLsb'_eq_zero_iff (hz : z.toNat < 2 ^ (lo + len)) : z.extractLsb' lo len = 0#len ↔ z.toNat < 2 ^ lo := by
  have hdiv : z.toNat / 2 ^ lo < 2 ^ len := Nat.div_lt_of_lt_mul (by rwa [← pow_add])
  rw [← BitVec.toNat_inj, BitVec.extractLsb'_toNat, Nat.shiftRight_eq_div_pow, Nat.mod_eq_of_lt hdiv, BitVec.toNat_ofNat,
    Nat.zero_mod, Nat.div_eq_zero_iff_lt (Nat.two_pow_pos lo)]

theorem getLsbD_top (z : BitVec n) : z.getLsbD (n - 1) = decide (z.toInt < 0) := by
  rw [← BitVec.msb_eq_getLsbD_last, BitVec.msb_eq_toInt]

theorem getLsbD_top_eq_false_iff : z.getLsbD (n - 1) = false ↔ 0 ≤ z.toInt := by
  rw [getLsbD_top, decide_eq_false_iff_not, not_lt]

theorem getLsbD_top_eq_true_iff : z.getLsbD (n - 1) = true ↔ z.toInt < 0 := by
  rw [getLsbD_top, decide_eq_true_iff]

theorem toNat_of_nonneg (hz : 0 ≤ z.toInt) : (z.toNat : Int) = z.toInt := by
  have hmsb : z.msb = false := by simpa [BitVec.msb_eq_toInt] using hz
  exact (BitVec.toInt_eq_toNat_of_msb hmsb).symm

theorem toInt_complement (hn : 0 < n) (z : BitVec n) : (~~~z).toInt = -z.toInt - 1 := by
  have hz := z.isLt
  have hpow : 2 ^ n = 2 * 2 ^ (n - 1) := by rw [← pow_succ', Nat.sub_add_cancel hn]
  rw [BitVec.toInt_eq_toNat_cond, BitVec.toInt_eq_toNat_cond, BitVec.toNat_not]
  split <;> split <;> omega

theorem upper_eq_zero_iff (hlen : lo + len = n - 1) (hz : 0 ≤ z.toInt) :
    z.extractLsb' lo len = 0#len ↔ z.toInt < 2 ^ lo := by
  have hlt := z.toInt_lt
  rw [← toNat_of_nonneg hz] at hlt ⊢
  rw [extractLsb'_eq_zero_iff (by rw [hlen]; exact_mod_cast hlt)]
  norm_cast

/-- The complement turns the ones of a negative number into the zeros of a non-negative one. -/
theorem upper_eq_allOnes_iff (hlen : lo + len = n - 1) (hz : z.toInt < 0) :
    z.extractLsb' lo len = BitVec.allOnes len ↔ -2 ^ lo ≤ z.toInt := by
  have hn : 0 < n := Nat.pos_of_ne_zero fun h0 => by
    subst h0
    simp [BitVec.of_length_zero] at hz
  have hnot := toInt_complement hn z
  calc z.extractLsb' lo len = BitVec.allOnes len
      ↔ (~~~z).extractLsb' lo len = 0#len := by
        rw [BitVec.extractLsb'_not_of_lt (by omega), BitVec.not_eq_comm, BitVec.not_zero]
    _ ↔ (~~~z).toInt < 2 ^ lo := upper_eq_zero_iff hlen (by omega)
    _ ↔ -2 ^ lo ≤ z.toInt := by omega

theorem two_pow_le_toInt_iff (hlen : lo + len = n - 1) :
    z.getLsbD (n - 1) = false ∧ z.extractLsb' lo len ≠ 0#len ↔ 2 ^ lo ≤ z.toInt := by
  have hpos : (0 : Int) < 2 ^ lo := by positivity
  rw [getLsbD_top_eq_false_iff, ← not_lt (b := 2 ^ lo)]
  constructor
  · rintro ⟨hz, hne⟩
    rwa [← upper_eq_zero_iff hlen hz]
  · intro hlt
    have hz : 0 ≤ z.toInt := by omega
    exact ⟨hz, by rwa [ne_eq, upper_eq_zero_iff hlen hz]⟩

theorem toInt_lt_neg_two_pow_iff (hlen : lo + len = n - 1) :
    z.getLsbD (n - 1) = true ∧ z.extractLsb' lo len ≠ BitVec.allOnes len ↔ z.toInt < -2 ^ lo := by
  have hpos : (0 : Int) < 2 ^ lo := by positivity
  rw [getLsbD_top_eq_true_iff, ← not_le (a := -2 ^ lo)]
  constructor
  · rintro ⟨hz, hne⟩
    rwa [← upper_eq_allOnes_iff hlen hz]
  · intro hle
    have hz : z.toInt < 0 := by omega
    exact ⟨hz, by rwa [ne_eq, upper_eq_allOnes_iff hlen hz]⟩

/-! ## The saturations as clamps (R311 to R313) -/

variable {w} {c : BitVec (2 * w)}

/-- The low bits of a number that fits in the narrow element, signed. -/
theorem toInt_low_of_fits (hw : 0 < w) (hlo : -2 ^ (w - 1) ≤ c.toInt) (hhi : c.toInt < 2 ^ (w - 1)) :
    (c.extractLsb' 0 w).toInt = c.toInt := by
  have hpow : (2 : Int) ^ w = 2 ^ (w - 1) * 2 := by rw [← pow_succ, Nat.sub_add_cancel hw]
  have hdvd : 2 ^ w ∣ 2 ^ (2 * w) := pow_dvd_pow 2 (by omega)
  rw [BitVec.toInt_extractLsb', Nat.shiftRight_zero, ← Int.bmod_bmod_of_dvd hdvd, ← BitVec.toInt_eq_toNat_bmod]
  apply Int.bmod_eq_of_le_mul_two <;> push_cast <;> omega

/-- The low bits of a number that fits in the narrow element, unsigned. -/
theorem toNat_low_of_fits (hhi : c.toNat < 2 ^ w) : (c.extractLsb' 0 w).toNat = c.toNat := by
  rw [BitVec.extractLsb'_toNat, Nat.shiftRight_zero, Nat.mod_eq_of_lt hhi]

theorem toInt_signedMin (hw : 0 < w) : (1#w <<< (w - 1)).toInt = -2 ^ (w - 1) := by
  rw [← BitVec.twoPow_eq, BitVec.toInt_twoPow, if_neg (by omega), if_pos (by omega)]
  norm_cast

theorem toInt_signedMax (hw : 0 < w) : (~~~(1#w <<< (w - 1))).toInt = 2 ^ (w - 1) - 1 := by
  rw [toInt_complement hw, toInt_signedMin hw, neg_neg]

variable (c)

theorem toInt_saturateSignedS (hw : 0 < w) :
    (saturateSignedS w c).toInt = max (-2 ^ (w - 1)) (min (2 ^ (w - 1) - 1) c.toInt) := by
  have hpos : (0 : Int) < 2 ^ (w - 1) := by positivity
  have hlen : w - 1 + w = 2 * w - 1 := by omega
  simp only [saturateSignedS, two_pow_le_toInt_iff hlen, toInt_lt_neg_two_pow_iff hlen]
  split
  next habove =>
    rw [toInt_signedMax hw]
    omega
  next hmax =>
  split
  next hbelow =>
    rw [toInt_signedMin hw]
    omega
  next hmin =>
    rw [toInt_low_of_fits hw (by omega) (by omega)]
    omega

theorem toNat_saturateUnsignedS (hw : 0 < w) :
    ((saturateUnsignedS w c).toNat : Int) = max 0 (min (2 ^ w - 1) c.toInt) := by
  have hpos : (0 : Int) < 2 ^ w := by positivity
  have hlen : w + (w - 1) = 2 * w - 1 := by omega
  simp only [saturateUnsignedS, two_pow_le_toInt_iff hlen, getLsbD_top_eq_true_iff]
  split
  next habove =>
    rw [min_eq_left (by omega), max_eq_right (by omega), BitVec.toNat_allOnes]
    push_cast [Nat.one_le_two_pow]
    rfl
  next hmax =>
  split
  next hneg =>
    rw [min_eq_right (by omega), max_eq_left hneg.le, BitVec.toNat_ofNat, Nat.zero_mod]
    rfl
  next hc =>
    have hcast := toNat_of_nonneg (not_lt.mp hc)
    rw [toNat_low_of_fits (by zify; omega)]
    omega

theorem toNat_saturateUnsignedU : (saturateUnsignedU w c).toNat = min (2 ^ w - 1) c.toNat := by
  have hzero := extractLsb'_eq_zero_iff (z := c) (lo := w) (len := w) (by rw [← two_mul]; exact c.isLt)
  rw [saturateUnsignedU]
  split
  next habove =>
    rw [ne_eq, hzero] at habove
    rw [BitVec.toNat_allOnes]
    omega
  next hfits =>
    rw [not_not, hzero] at hfits
    rw [toNat_low_of_fits hfits]
    omega

/-! ## The narrowing template (R314) -/

section
variable (w) {x y : Vec}

theorem elem_narrow (sat : BitVec (2 * w) → BitVec w) (hi : i < 128 / w) :
    elem w (narrow w sat x y) i = sat (elem (2 * w) (x ++ y) i) :=
  elem_lanes _ _ _ hi (Nat.mul_div_le 128 w)

theorem toInt_narrow_signedS (hw : 0 < w) (hi : i < 128 / w) : (elem w (narrow w (saturateSignedS w) x y) i).toInt
    = max (-2 ^ (w - 1)) (min (2 ^ (w - 1) - 1) (elem (2 * w) (x ++ y) i).toInt) := by
  rw [elem_narrow _ _ hi, toInt_saturateSignedS _ hw]

theorem toNat_narrow_unsignedS (hw : 0 < w) (hi : i < 128 / w) :
    ((elem w (narrow w (saturateUnsignedS w) x y) i).toNat : Int)
      = max 0 (min (2 ^ w - 1) (elem (2 * w) (x ++ y) i).toInt) := by
  rw [elem_narrow _ _ hi, toNat_saturateUnsignedS _ hw]

theorem toNat_narrow_unsignedU (hi : i < 128 / w) : (elem w (narrow w (saturateUnsignedU w) x y) i).toNat
    = min (2 ^ w - 1) (elem (2 * w) (x ++ y) i).toNat := by
  rw [elem_narrow _ _ hi, toNat_saturateUnsignedU]

end

/-! ## The instructions

The settling theorems have a namespace of their own, beside the value function `addSigned` of FCMUL.W. -/

namespace IntArith

/-- Settles O1: the exact sum of signed elements, in both halves and at both widths. -/
theorem addSigned : Obligations.AddSigned := by
  intro s wd ws wt h
  exact ⟨completesWriting_of_body h rfl fun _ => toInt_widen_add 8 .left,
    completesWriting_of_body h rfl fun _ => toInt_widen_add 8 .right,
    completesWriting_of_body h rfl fun _ => toInt_widen_add 16 .left,
    completesWriting_of_body h rfl fun _ => toInt_widen_add 16 .right⟩

/-- Settles O2: the exact sum of unsigned elements, in both halves and at both widths. -/
theorem addUnsigned : Obligations.AddUnsigned := by
  intro s wd ws wt h
  exact ⟨completesWriting_of_body h rfl fun _ => toNat_widen_add 8 .left,
    completesWriting_of_body h rfl fun _ => toNat_widen_add 8 .right,
    completesWriting_of_body h rfl fun _ => toNat_widen_add 16 .left,
    completesWriting_of_body h rfl fun _ => toNat_widen_add 16 .right⟩

/-- Settles O3: the signed sum with the old destination, wrapped. -/
theorem accumulateSigned : Obligations.AccumulateSigned := by
  intro s wd ws h
  exact ⟨completesWriting_of_body h rfl fun _ => toInt_accumulate 8 .left,
    completesWriting_of_body h rfl fun _ => toInt_accumulate 8 .right,
    completesWriting_of_body h rfl fun _ => toInt_accumulate 16 .left,
    completesWriting_of_body h rfl fun _ => toInt_accumulate 16 .right⟩

/-- Settles O4: the unsigned sum with the old destination, wrapped. -/
theorem accumulateUnsigned : Obligations.AccumulateUnsigned := by
  intro s wd ws h
  exact ⟨completesWriting_of_body h rfl fun _ => toNat_accumulate 8 .left,
    completesWriting_of_body h rfl fun _ => toNat_accumulate 8 .right,
    completesWriting_of_body h rfl fun _ => toNat_accumulate 16 .left,
    completesWriting_of_body h rfl fun _ => toNat_accumulate 16 .right⟩

/-- Settles O5: the exact difference of signed elements. -/
theorem subtractSigned : Obligations.SubtractSigned := by
  intro s wd ws wt h
  exact ⟨completesWriting_of_body h rfl fun _ => toInt_widen_sub 8 .left,
    completesWriting_of_body h rfl fun _ => toInt_widen_sub 8 .right,
    completesWriting_of_body h rfl fun _ => toInt_widen_sub 16 .left,
    completesWriting_of_body h rfl fun _ => toInt_widen_sub 16 .right⟩

/-- Settles O6: the difference of unsigned elements, wrapped. -/
theorem subtractUnsigned : Obligations.SubtractUnsigned := by
  intro s wd ws wt h
  exact ⟨completesWriting_of_body h rfl fun _ => toNat_widen_sub 8 .left,
    completesWriting_of_body h rfl fun _ => toNat_widen_sub 8 .right,
    completesWriting_of_body h rfl fun _ => toNat_widen_sub 16 .left,
    completesWriting_of_body h rfl fun _ => toNat_widen_sub 16 .right⟩

/-- Settles O7: the exact product of signed elements. -/
theorem multiplySigned : Obligations.MultiplySigned := by
  intro s wd ws wt h
  exact ⟨completesWriting_of_body h rfl fun _ => toInt_widen_mul 8 .left,
    completesWriting_of_body h rfl fun _ => toInt_widen_mul 8 .right,
    completesWriting_of_body h rfl fun _ => toInt_widen_mul 16 .left,
    completesWriting_of_body h rfl fun _ => toInt_widen_mul 16 .right⟩

/-- Settles O8: the exact product of unsigned elements. -/
theorem multiplyUnsigned : Obligations.MultiplyUnsigned := by
  intro s wd ws wt h
  exact ⟨completesWriting_of_body h rfl fun _ => toNat_widen_mul 8 .left,
    completesWriting_of_body h rfl fun _ => toNat_widen_mul 8 .right,
    completesWriting_of_body h rfl fun _ => toNat_widen_mul 16 .left,
    completesWriting_of_body h rfl fun _ => toNat_widen_mul 16 .right⟩

/-- Settles O9: the three clamps at both widths, in place order. -/
theorem saturate : Obligations.Saturate := by
  intro s wd ws wt h
  exact ⟨completesWriting_of_body h rfl fun _ => toInt_narrow_signedS 8 (by decide),
    completesWriting_of_body h rfl fun _ => toInt_narrow_signedS 16 (by decide),
    completesWriting_of_body h rfl fun _ => toNat_narrow_unsignedS 8 (by decide),
    completesWriting_of_body h rfl fun _ => toNat_narrow_unsignedS 16 (by decide),
    completesWriting_of_body h rfl fun _ => toNat_narrow_unsignedU 8,
    completesWriting_of_body h rfl fun _ => toNat_narrow_unsignedU 16⟩

end IntArith
end Sys2Proof.Machine
end

section
/-! SUPPORT. The enable checks and their exceptions: what the prologue of R356 answers in each of its cases, and so what
every instruction and every reserved word answers there. -/

namespace Sys2Proof.Machine

variable {s t : State} {i : Instr}

/-! ## Taking an exception -/

/-- With Status.EXL = 0 an exception is taken as R359 says. -/
theorem raiseExc_took (e : Exc) (h : statusEXL s = false) :
    ∃ t, raiseExc s e = .next t ∧ TookException (excCode e) (excVAddr e) s t :=
  ⟨_, raiseExc_of_exl_clear e h, enterException_took s e⟩

theorem raiseExc_of_exl_set (e : Exc) (h : statusEXL s = true) : raiseExc s e = .refused .trapWhileExl :=
  if_pos h

/-! ## The cases of the prologue, in its order (R356) -/

/-- The unit is absent, or its registers are shared with an FPU of 32-bit registers (R351). -/
theorem riUnit_iff : riUnit s = true ↔
    s.config3.getLsbD 28 = false ∨ s.status.getLsbD 29 = true ∧ s.status.getLsbD 26 = false := by
  simp [riUnit, msap, statusCU1, statusFR]

theorem riUnit_eq_false_iff : riUnit s = false ↔
    s.config3.getLsbD 28 = true ∧ (s.status.getLsbD 29 = false ∨ s.status.getLsbD 26 = true) := by
  rw [← Bool.not_eq_true, riUnit_iff, not_or, not_and_or, Bool.not_eq_false, Bool.not_eq_true, Bool.not_eq_false]

section
variable {valid : Bool} {body : Result}

theorem mxa_of_cu2Clear (h : cu2Allows s = false) : mxa valid s body = .refused .cu2Clear := by
  have h0 : (s.params.requireCU2 && !statusCU2 s) = true := by simpa [cu2Allows] using h
  simp [mxa, h0]

variable (hc : cu2Allows s = true)
include hc

/-- Where `REQUIRE_CU2` does not stand in the way, the prologue begins with the unit (R356, R367). -/
theorem mxa_of_cu2Allows : mxa valid s body =
    if riUnit s then raiseExc s .reservedInstruction
    else if !valid then raiseExc s .reservedInstruction
    else if !msaEn s then raiseExc s .mxaDisabled
    else if s.params.msairWrp then .refused .partitioning
    else body := by
  have h0 : (s.params.requireCU2 && !statusCU2 s) = false := by
    simpa [cu2Allows, imp_iff_not_or] using hc
  simp [mxa, h0]

theorem mxa_of_reserved (h : riUnit s = true ∨ valid = false) :
    mxa valid s body = raiseExc s .reservedInstruction := by
  rw [mxa_of_cu2Allows hc]
  obtain h | h := h <;> simp [h]

theorem mxa_of_disabled (hu : riUnit s = false) (hv : valid = true) (he : msaEn s = false) :
    mxa valid s body = raiseExc s .mxaDisabled := by
  simp [mxa_of_cu2Allows hc, hu, hv, he]

theorem mxa_of_partitioning (hu : riUnit s = false) (hv : valid = true) (he : msaEn s = true)
    (hw : s.params.msairWrp = true) : mxa valid s body = .refused .partitioning := by
  simp [mxa_of_cu2Allows hc, hu, hv, he, hw]

/-- An enable check that fails raises Reserved Instruction or MXA Disabled, neither of which has an address (R350). -/
theorem mxa_of_check_fails (h : riUnit s = true ∨ valid = false ∨ msaEn s = false) :
    ∃ e, excVAddr e = none ∧ mxa valid s body = raiseExc s e := by
  by_cases hr : riUnit s = true ∨ valid = false
  · exact ⟨_, rfl, mxa_of_reserved hc hr⟩
  · have he : msaEn s = false := (or_assoc.mpr h).resolve_left hr
    rw [not_or, Bool.not_eq_true, Bool.not_eq_false] at hr
    obtain ⟨hu, hv⟩ := hr
    exact ⟨_, rfl, mxa_of_disabled hc hu hv he⟩

end

/-! ## Every instruction -/

section
variable (hc : cu2Allows s = true)
include hc

theorem exec_of_reserved (h : riUnit s = true ∨ i.wellFormed = false) :
    exec i s = raiseExc s .reservedInstruction := by
  obtain ⟨body, he⟩ := exec_eq_mxa i s
  rw [he, mxa_of_reserved hc h]

theorem exec_of_check_fails (h : riUnit s = true ∨ i.wellFormed = false ∨ msaEn s = false) :
    ∃ e, excVAddr e = none ∧ exec i s = raiseExc s e := by
  obtain ⟨body, he⟩ := exec_eq_mxa i s
  exact he ▸ mxa_of_check_fails hc h

end

/-- Settles O39: the unit is the first check that raises an exception. -/
theorem reservedUnit : Obligations.ReservedUnit := by
  intro s i
  refine ⟨fun hc hexl hunit => ?_, fun hmsap hfpu => riUnit_eq_false_iff.mpr ⟨hmsap, hfpu⟩⟩
  rw [exec_of_reserved hc (.inl (riUnit_iff.mpr hunit))]
  exact raiseExc_took .reservedInstruction hexl

theorem step_of_decode_reserved {w : Word} (h : fetches s w) (hd : decode w = .reserved) : step s = execReserved s := by
  simp [step, stepWith, fetch_of_fetches h, decodeBytes_bytesOfNat, hd]

/-- Settles O40: by O53 such a word decodes as reserved, and the check of the encoding stands before that of MSAEn. -/
theorem reservedEncodings : Obligations.ReservedEncodings := by
  intro s hc hexl
  refine ⟨fun w hw hop hbit hnone => ?_, fun i hi => ?_⟩
  · obtain ⟨-, -, hreserved, -⟩ := decodeVerdicts w
    rw [step_of_decode_reserved hw (hreserved.mpr ⟨hop, hbit, hnone⟩), execReserved, mxa_of_reserved hc (.inr rfl)]
    exact raiseExc_took .reservedInstruction hexl
  · rw [exec_of_reserved hc (.inr hi)]
    exact raiseExc_took .reservedInstruction hexl

/-- Settles O41: MSAEn is looked at after the unit and the encoding, and MSAIR.WRP after MSAEn. -/
theorem mxaDisabled : Obligations.MxaDisabled := by
  intro s i hi hc hu
  obtain ⟨body, he⟩ := exec_eq_mxa i s
  rw [he]
  refine ⟨fun hen hexl => ?_, fun hen hwrp => ?_⟩
  · rw [mxa_of_disabled hc hu hi hen]
    exact raiseExc_took .mxaDisabled hexl
  · exact mxa_of_partitioning hc hu hi hen (msair_getLsbD_16 s ▸ hwrp)

/-- Settles O42: Status.CU2 is the first check; and every exception, of a check or of an access, is refused with EXL set. -/
theorem premiseRefusals : Obligations.PremiseRefusals := by
  intro s i
  obtain ⟨body, he, hb⟩ := exec_bodyForm i s
  refine ⟨fun hreq hcu2 => ?_, fun hc hexl hcheck => ?_, fun ⟨acc, v, n⟩ hs hexl hi ha hmod => ?_⟩
  · have hclear : cu2Allows s = false := by rw [cu2Allows, statusCU2, hreq, hcu2]; rfl
    rw [he, mxa_of_cu2Clear hclear]
  · obtain ⟨e, -, hraise⟩ := exec_of_check_fails hc hcheck
    rw [hraise, raiseExc_of_exl_set e hexl]
  · have hal : aligned v n = false := by simpa [aligned] using hmod
    rw [ha] at hb
    rw [exec_eq_body hs hi he, hb.eq_raiseExc hal, raiseExc_of_exl_set _ hexl]

/-! ## Completions -/

/-- A body that accesses no memory completes (R56, R71). -/
theorem BodyForm.completes {e : Effect} {body : Result} (hb : BodyForm s e none body) :
    ∃ t, body = .next t ∧ Wrote e s t := by
  cases hb with
  | vector wd v => exact ⟨_, rfl, (writeWr_wroteOnly s wd v).toWrote⟩
  | drawnVector wd v => exact ⟨_, rfl, drawnWriteWr_wrote s wd v _⟩
  | vectorAndStatus wd v => exact ⟨_, rfl, drawFpStatus_writeWr_wrote s wd v⟩

/-- A body that accesses memory at an aligned address answers a next state only by completing (R240). -/
theorem BodyForm.wrote_of_aligned {e : Effect} {acc : Access} {a : Addr} {n : Nat} {body : Result}
    (hb : BodyForm s e (some ⟨acc, a, n⟩) body) (hal : aligned a n = true) (h : body = .next t) : Wrote e s t := by
  have hne : aligned a n ≠ false := by simp [hal]
  cases hb with
  | load _ _ wd f =>
    obtain ⟨x, -, rfl⟩ := (load_next h).resolve_left fun ⟨hmis, _⟩ => hne hmis
    exact (writeWr_wroteOnly s wd (f x)).toWrote
  | loadUpdate _ _ wd base f =>
    obtain ⟨x, -, rfl⟩ := (load_next h).resolve_left fun ⟨hmis, _⟩ => hne hmis
    exact (writeWr_writeGpr_wroteOnly s wd (f x) base a).toWrote
  | store =>
    obtain ⟨_, -, rfl, rfl⟩ := (store_next h).resolve_left fun ⟨hmis, _⟩ => hne hmis
    exact (mem_wroteOnly s _).toWrote
  | storeUpdate _ _ _ base =>
    obtain ⟨_, -, rfl, rfl⟩ := (store_next h).resolve_left fun ⟨hmis, _⟩ => hne hmis
    exact (mem_writeGpr_wroteOnly s _ base a).toWrote

/-- A body answers a next state by completing with the writes its form names, or, at a misaligned address, by the Address
Error of its access (R242). -/
theorem BodyForm.next_cases {e : Effect} {a : Option MemAccess} {body : Result} (hb : BodyForm s e a body)
    (h : body = .next t) :
    Wrote e s t
      ∨ ∃ acc v n, a = some ⟨acc, v, n⟩ ∧ aligned v n = false ∧ t = enterException s (addressError acc v) := by
  match a with
  | none =>
    obtain ⟨u, hu, hw⟩ := hb.completes
    rw [h] at hu
    cases hu
    exact .inl hw
  | some ⟨acc, v, n⟩ =>
    cases hal : aligned v n with
    | true => exact .inl (hb.wrote_of_aligned hal h)
    | false =>
      obtain ⟨-, ht⟩ := raiseExc_next (hb.eq_raiseExc hal ▸ h)
      exact .inr ⟨acc, v, n, rfl, hal, ht⟩

/-- A store changes no byte outside those of its access (R74). -/
theorem Stored.sameMemoryOutside {a : MemAccess} (h : Stored (some a) s t) : SameMemoryOutside a.vaddr a.size s t := by
  intro k hk
  obtain hm | ⟨v, n, x, ha, -, hm⟩ := h.mem
  · rw [hm]
  · cases ha
    rw [hm, memGet_memWrite_ne _ _ v n x k hk]

/-- Settles O43: the two exceptions of the prologue, and of the body its completion or the Address Error of its access. -/
theorem whichExceptions : Obligations.WhichExceptions := by
  intro s t i h
  obtain ⟨body, he, hb⟩ := exec_bodyForm i s
  obtain ⟨-, -, rfl⟩ | ⟨-, -, -, -, rfl⟩ | ⟨-, -, hn⟩ := mxa_next (he ▸ h)
  · exact .inr (.inl (enterException_took s .reservedInstruction))
  · exact .inr (.inr (.inl (enterException_took s .mxaDisabled)))
  · obtain hw | ⟨acc, v, n, ha, hal, rfl⟩ := hb.next_cases hn
    · exact .inl ⟨hw, fun a ha _ => (ha ▸ exec_stored h).sameMemoryOutside⟩
    · have hmod : v.toNat % n ≠ 0 := by simpa [aligned] using hal
      have htook := enterException_took s (addressError acc v)
      refine .inr (.inr (.inr ⟨_, ha, hmod, ?_⟩))
      cases acc with
      | load => exact htook
      | store => exact htook

/-- Settles O44: where every check passes the body runs, and without an access it completes; where one fails the
prologue raises its exception. -/
theorem executesExactlyWhen : Obligations.ExecutesExactlyWhen := by
  intro s i hi hacc hc hexl hwrp
  have hchecks : (s.config3.getLsbD 28 = true ∧ ¬(s.status.getLsbD 29 = true ∧ s.status.getLsbD 26 = false)
      ∧ s.config5.getLsbD 27 = true) ↔ riUnit s = false ∧ msaEn s = true := by
    rw [riUnit_eq_false_iff, not_and_or, Bool.not_eq_true, Bool.not_eq_false, and_assoc]
    rfl
  rw [hchecks]
  refine ⟨fun ⟨hu, hen⟩ => ?_, fun hfail => ?_⟩
  · obtain ⟨body, he, hb⟩ := exec_bodyForm i s
    have hs : executes s = true := by simp [executes, hc, hu, hen, hwrp]
    rw [exec_eq_body hs hi he]
    exact (hacc ▸ hb).completes
  · have hfail' : riUnit s = true ∨ i.wellFormed = false ∨ msaEn s = false := by
      rw [not_and_or, Bool.not_eq_false, Bool.not_eq_true] at hfail
      exact hfail.imp_right .inr
    obtain ⟨e, hnone, hraise⟩ := exec_of_check_fails hc hfail'
    obtain ⟨t, ht, htook⟩ := raiseExc_took e hexl
    exact ⟨t, excCode e, hraise.trans ht, hnone ▸ htook⟩

end Sys2Proof.Machine
end

section
/-! SUPPORT. What stops an access: each stop of R79 to R81, R85 and of an unwritten byte, said once for a body that
accesses memory; and what no step writes. -/

namespace Sys2Proof.Machine

variable {s t : State}

/-! ## What the launch does not allow -/

section
variable {acc : Access} {p : Addr} {n : Nat}

theorem checkAccess_of_device (h : ∃ a ∈ span p n, inRegion s .device a = true) :
    checkAccess s acc p n = .refused .deviceRegion :=
  if_pos (List.any_eq_true.mpr h)

variable (hd : ∀ a ∈ span p n, inRegion s .device a = false)
include hd

theorem checkAccess_of_outside (h : ∃ a ∈ span p n, inRegion s .memory a = false) :
    checkAccess s acc p n = .fault .outsideLaunchMemory := by
  have hm : (span p n).all (inRegion s .memory) = false := List.all_eq_false.mpr (by simpa using h)
  simp [checkAccess, List.any_eq_false.mpr (by simpa using hd), hm]

variable (hm : ∀ a ∈ span p n, inRegion s .memory a = true)
include hm

theorem checkAccess_of_text (h : ∃ a ∈ span p n, inText s a = true) :
    checkAccess s .store p n = .refused .storeIntoText := by
  simp [checkAccess, List.any_eq_false.mpr (by simpa using hd), List.all_eq_true.mpr hm, List.any_eq_true.mpr h]

/-- A load may read program text (R85). -/
theorem checkAccess_load : checkAccess s .load p n = .next () :=
  checkAccess_of (List.any_eq_false.mpr (by simpa using hd)) (List.all_eq_true.mpr hm) rfl

end

/-- A string of bytes has no value where one of them has none (R73, log 18). -/
theorem memBytes_eq_none {m : Memory} {p : Addr} {n : Nat} (h : ∃ a ∈ span p n, memGet m a.toNat = none) :
    memBytes m p n = none := by
  obtain ⟨a, ha, hnone⟩ := h
  induction n generalizing p with
  | zero => cases ha
  | succ n ih =>
    rw [Option.eq_none_iff_forall_ne_some]
    intro bs hbs
    obtain ⟨b, hb, bs', hbs', -⟩ := memBytes_succ_eq_some_iff.mp hbs
    obtain rfl | ha := List.mem_cons.mp ha
    · simp [hnone] at hb
    · simp [ih ha] at hbs'

theorem memRead_eq_none {m : Memory} (e : Endian) {p : Addr} {n : Nat}
    (h : ∃ a ∈ span p n, memGet m a.toNat = none) : memRead m e p n = none := by
  rw [memRead, memBytes_eq_none h, Option.map_none]

/-! ## The stops of a body, in the order of R240 -/

section
variable {e : Effect} {acc : Access} {a : Addr} {n : Nat} {body : Result} (hal : aligned a n = true)
include hal

theorem BodyForm.eq_fault_translation (hb : BodyForm s e (some ⟨acc, a, n⟩) body) (ht : translate s acc a = none) :
    body = .fault .translation := by
  cases hb with
  | load | loadUpdate => simp [Machine.load, hal, ht]
  | store | storeUpdate => simp [Machine.store, hal, ht]

theorem BodyForm.eq_refused (hb : BodyForm s e (some ⟨acc, a, n⟩) body) (ht : (translate s acc a).isSome = true)
    {r : Refusal} (hc : checkAccess s acc a n = .refused r) : body = .refused r := by
  obtain ⟨p, hp⟩ := Option.isSome_iff_exists.mp ht
  cases hb with
  | load | loadUpdate => simp [Machine.load, hal, hp, hc]
  | store | storeUpdate => simp [Machine.store, hal, hp, hc]

theorem BodyForm.eq_fault (hb : BodyForm s e (some ⟨acc, a, n⟩) body) (ht : (translate s acc a).isSome = true)
    {f : Fault} (hc : checkAccess s acc a n = .fault f) : body = .fault f := by
  obtain ⟨p, hp⟩ := Option.isSome_iff_exists.mp ht
  cases hb with
  | load | loadUpdate => simp [Machine.load, hal, hp, hc]
  | store | storeUpdate => simp [Machine.store, hal, hp, hc]

theorem BodyForm.eq_fault_unwrittenByte (hb : BodyForm s e (some ⟨.load, a, n⟩) body)
    (ht : (translate s .load a).isSome = true) (hc : checkAccess s .load a n = .next ())
    (hm : memRead s.mem s.params.endian a n = none) : body = .fault .unwrittenByte := by
  obtain ⟨p, hp⟩ := Option.isSome_iff_exists.mp ht
  cases hb with
  | load | loadUpdate => simp [Machine.load, hal, hp, hc, hm]

end

/-- Settles O38: behind the prologue, each stop of the body in its order. -/
theorem accessStops : Obligations.AccessStops := by
  intro s i acc v n hs hi ha hmod
  obtain ⟨body, he, hb⟩ := exec_bodyForm i s
  have hal : aligned v n = true := by simpa [aligned] using hmod
  rw [exec_eq_body hs hi he]
  rw [ha] at hb
  refine ⟨hb.eq_fault_translation hal, fun ht => ⟨fun hdev => ?_, fun hd hout => ?_, fun hd hm => ⟨?_, ?_⟩⟩⟩
  · exact hb.eq_refused hal ht (checkAccess_of_device hdev)
  · exact hb.eq_fault hal ht (checkAccess_of_outside hd hout)
  · rintro rfl htext
    exact hb.eq_refused hal ht (checkAccess_of_text hd hm htext)
  · rintro rfl hbyte
    exact hb.eq_fault_unwrittenByte hal ht (checkAccess_load hd hm) (memRead_eq_none _ hbyte)

/-! ## What no step writes -/

/-- A store that goes through lies in the launch memory, in no device region and in no program text (R79, R81, R85). -/
theorem storesTo_span {v : Addr} {n : Nat} (h : storesTo s v n) {a : Addr} (ha : a ∈ span v n) :
    inText s a = false ∧ inRegion s .device a = false ∧ inRegion s .memory a = true := by
  obtain ⟨-, -, hc⟩ := h
  obtain ⟨hd, hm, htext⟩ := checkAccess_next hc
  exact ⟨htext rfl a ha, hd a ha, hm a ha⟩

/-- Settles O51: of all a step can do only an instruction's store writes memory, and only where `storesTo_span` says. -/
theorem onlyLaunchMemoryWritten : Obligations.OnlyLaunchMemoryWritten := by
  intro s t a h hforbidden
  obtain ⟨i, -, hst⟩ | ⟨x, rfl⟩ := step_next_stored h
  · obtain hm | ⟨v, n, x, -, hto, hm⟩ := hst.mem
    · rw [hm]
    · rw [hm]
      refine memGet_memWrite_ne _ _ v n x _ fun q hq heq => ?_
      obtain rfl := BitVec.eq_of_toNat_eq heq
      obtain ⟨htext, hdev, hmem⟩ := storesTo_span hto hq
      simp [htext, hdev, hmem] at hforbidden
  · rfl

end Sys2Proof.Machine
end

section
/-! SUPPORT. `GPR[0]`: reads, discarded writes and the addresses of base 0 (R35). -/

namespace Sys2Proof.Machine

/-- A write to `GPR[0]` is discarded (R35). -/
theorem readGpr_writeGpr_zero (s : State) (v : Addr) (r : GReg) : readGpr (writeGpr s 0#5 v) r = readGpr s r := by
  by_cases hr : r = 0#5
  · rw [hr, readGpr_zero, readGpr_zero]
  · exact readGpr_writeGpr_ne s v hr

/-- A register after a write of it or of another, as a number (R34). -/
theorem toNat_readGpr_writeGpr (s : State) (v : Addr) {r : GReg} (q : GReg) (hr : r ≠ 0#5) :
    (readGpr (writeGpr s r v) q).toNat = if q = r then v.toNat % 2 ^ gprBits s.params.gprLen else (readGpr s q).toNat := by
  split
  next h => rw [h, readGpr_writeGpr_self s v hr, toNat_wrapAddr]
  next h => rw [readGpr_writeGpr_ne s v h]

/-- An instruction that may write `GPR[0]` alone leaves every general register (R35). -/
theorem exec_readGpr_of_base_zero {i : Instr} {t : State} (hi : (effectOf i).gpr = some 0#5) (h : exec i s = .next t)
    (r : GReg) : readGpr t r = readGpr s r := by
  obtain hw | ⟨x, rfl⟩ := exec_next h
  · by_cases hr : r = 0#5
    · rw [hr, readGpr_zero, readGpr_zero]
    · refine hw.gprs r fun hsome => hr ?_
      rw [hi] at hsome
      exact (Option.some.inj hsome).symm
  · exact readGpr_enterException s x r

theorem addrIndexed_zero (s : State) (index : GReg) : addrIndexed s 0#5 index = readGpr s index := by
  rw [addrIndexed, readGpr_zero, BitVec.zero_add, wrapAddr_readGpr]

theorem addrNext_zero (s : State) {n : Nat} (hn : n < 2 ^ 32) : addrNext s 0#5 n = BitVec.ofNat 64 n := by
  have hlt : n < 2 ^ gprBits s.params.gprLen := by cases s.params.gprLen <;> simp only [gprBits] <;> omega
  apply BitVec.eq_of_toNat_eq
  rw [addrNext, toNat_wrapAddr_add_ofNat, readGpr_zero, BitVec.toNat_ofNat, BitVec.toNat_ofNat, Nat.zero_mod,
    Nat.zero_add, Nat.mod_eq_of_lt hlt, Nat.mod_eq_of_lt (by omega)]

/-- Settles O46: the rules of reads after writes, the frame of the general registers, and the addresses at base 0. -/
theorem gprZero : Obligations.GprZero := by
  intro s
  refine ⟨readGpr_zero s, readGpr_writeGpr_zero s, fun v r q => toNat_readGpr_writeGpr s v q,
    fun i t => exec_readGpr_of_base_zero, fun index n => ⟨addrIndexed_zero s index, fun hn => ?_⟩⟩
  exact addrNext_zero s (by omega)

end Sys2Proof.Machine
end

section
/-! SUPPORT. The end of a run: the step answers what stops the fetch (R359, R409). -/

namespace Sys2Proof.Machine

variable {s : State}

theorem step_of_fetch_fault {f : Fault} (h : fetch s = .fault f) : step s = .fault f := by
  simp [step, stepWith, h]

theorem step_of_fetch_refused {r : Refusal} (h : fetch s = .refused r) : step s = .refused r := by
  simp [step, stepWith, h]

/-- Settles O57: the checks of `fetch`, in its order. -/
theorem runEnds : Obligations.RunEnds := by
  intro s
  have htrap (trap : Trap) (h : s.trap = some trap) : step s = .fault (.runTrap trap) := stepWith_of_trap h
  have haligned (h : s.pc.toNat % 4 = 0) : aligned s.pc 4 = true := by simpa [aligned] using h
  refine ⟨fun r code vaddr h => htrap _ h.trap, htrap, fun h0 h1 => ?_, fun h0 h1 h2 => ?_, fun h0 h1 h2 h3 h4 => ?_,
    fun h0 h1 h2 h3 h4 => ?_⟩
  · exact step_of_fetch_refused (by simp [fetch, h0, h1])
  · have hmis : aligned s.pc 4 = false := by simpa [aligned] using h2
    exact step_of_fetch_refused (by simp [fetch, h0, h1, hmis])
  · exact step_of_fetch_fault (by simp [fetch, h0, h1, haligned h2, h3, ← h4])
  · exact step_of_fetch_refused (by simp [fetch, h0, h1, haligned h2, h3, h4])

end Sys2Proof.Machine
end
